-- ==== Sys2Proof/Word.lean ====
section
/-! DEFINITION. The words of the block: 32-bit registers and 8-bit memory bytes (00_scope.md R8, 20_memory.md R60). -/

namespace Sys2Proof

/-- A register, a register transaction and a command word are 32 bits wide (`XLEN_REG`, 00_scope.md R8). -/
abbrev Word := BitVec 32

/-- A memory byte (20_memory.md R60). -/
abbrev Byte := BitVec 8

/-- A byte address on the memory port (`ALEN = 32`, 00_scope.md R8). -/
abbrev Addr := BitVec 32

end Sys2Proof
end

