-- ==== Sys2Proof/Syntax.lean ====
section
/-! DEFINITION. The commands, one constructor for each row of spec/opcode_table.json. A command has no operand fields:
its operands are the banks, the scratch registers and memory (30_encoding.md R80, R82). -/

namespace Sys2Proof

/-- The 18 commands of 30_encoding.md R81, in the table's order. -/
inductive Instr where
  | nop
  | layoutS
  | layoutD
  | copylayout
  | unpack10
  | pack10
  | narrow
  | widen
  | rescale16
  | untile8
  | tile8
  | sp2p
  | p2sp
  | pk2p
  | p2pk
  | resample
  | rectcopy
  | convert
  deriving DecidableEq, Repr

end Sys2Proof
end

