-- ==== Sys2Proof/Decode.lean ====
section
/-! DEFINITION. The command word's decoder, total on all `2^32` words and rejecting by name, and the encoder
(30_encoding.md R80, R81, R84). -/

namespace Sys2Proof

/-- Why a command word is illegal (30_encoding.md R84). -/
inductive Reject where
  /-- `RSV`, bits 31:8, is not zero. -/
  | reservedBits
  /-- `RSV` is zero and `OPC` is none of the 18 opcodes. -/
  | unlistedOpcode
  deriving DecidableEq, Repr

/-- `OPC`, bits 7:0 of a command word (30_encoding.md R80). -/
def opcField (w : Word) : BitVec 8 := w.extractLsb' 0 8

/-- `RSV`, bits 31:8 of a command word (30_encoding.md R80). -/
def rsvField (w : Word) : BitVec 24 := w.extractLsb' 8 24

/-- The opcode map of 30_encoding.md R81, read from the opcode byte. -/
def decodeOpcode (opc : BitVec 8) : Option Instr :=
  match opc.toNat with
  | 0x00 => some .nop
  | 0x01 => some .layoutS
  | 0x02 => some .layoutD
  | 0x03 => some .copylayout
  | 0x10 => some .unpack10
  | 0x11 => some .pack10
  | 0x12 => some .narrow
  | 0x13 => some .widen
  | 0x14 => some .rescale16
  | 0x20 => some .untile8
  | 0x21 => some .tile8
  | 0x22 => some .sp2p
  | 0x23 => some .p2sp
  | 0x24 => some .pk2p
  | 0x25 => some .p2pk
  | 0x26 => some .resample
  | 0x27 => some .rectcopy
  | 0x30 => some .convert
  | _ => none

/-- The decoder: `RSV` must be zero and `OPC` one of the 18 opcodes (30_encoding.md R81, R84). -/
def decode (w : Word) : Except Reject Instr :=
  if rsvField w = 0#24 then
    match decodeOpcode (opcField w) with
    | some i => .ok i
    | none => .error .unlistedOpcode
  else .error .reservedBits

/-- The opcode of a command (30_encoding.md R81). -/
def opcodeOf : Instr → BitVec 8
  | .nop => 0x00#8
  | .layoutS => 0x01#8
  | .layoutD => 0x02#8
  | .copylayout => 0x03#8
  | .unpack10 => 0x10#8
  | .pack10 => 0x11#8
  | .narrow => 0x12#8
  | .widen => 0x13#8
  | .rescale16 => 0x14#8
  | .untile8 => 0x20#8
  | .tile8 => 0x21#8
  | .sp2p => 0x22#8
  | .p2sp => 0x23#8
  | .pk2p => 0x24#8
  | .p2pk => 0x25#8
  | .resample => 0x26#8
  | .rectcopy => 0x27#8
  | .convert => 0x30#8

/-- The encoder: `RSV = 0` above the opcode (30_encoding.md R80, R81). -/
def encode (i : Instr) : Word := 0#24 ++ opcodeOf i

/-- The word of a table row: its `nbits` bits, every bit above them zero (30_encoding.md R80: one 32-bit word). -/
def tableWord (nbits w : Nat) : Word := BitVec.ofNat 32 (w % 2 ^ nbits)

/-- The instruction the decoder reads from a table row's bits. -/
def decodeTableWord (nbits w : Nat) : Option Instr :=
  match decode (tableWord nbits w) with
  | .ok i => some i
  | .error _ => none

end Sys2Proof
end

