-- ==== Sys2Proof/Config.lean ====
section
/-! DEFINITION. The implementation parameters of 00_scope.md R8, the constants the spec fixes, and the free values
(constants with no body, so that nothing can be proved of their value). -/

namespace Sys2Proof

/-- `ALEN = 32`: memory is `2^32` bytes (00_scope.md R8, 20_memory.md R60). -/
def Config.memSize : Nat := 4294967296

/-- The constant the `ID` register reads (10_state.md R22). -/
def Config.idValue : Word := 0x59460007#32

/-- `NSTAGE_MAX`: the greatest number of primitive steps of one `CONVERT` (00_scope.md R8). -/
def Config.nstageMax : Nat := 7

/-- What a byte of memory that nothing has written reads as. DESIGN CHOICE, unsafe: the spec leaves the contents of
memory after power-on to the platform (10_state.md R51, 93 U5; log 5). -/
def Config.initialByte : Byte := 0#8

/-- `PFC_BASE`, the address of register offset 0 in the host's address space: a parameter no rule depends on
(00_scope.md R8, 93 U16; log 8). -/
opaque Config.pfcBase : Word

/-- FREE VALUE. What the byte at address `a` holds after the `k`-th reset that abandoned a running command allowed to
write it: any value (70_reset_and_hazards.md R211, 93 U12; log 7). -/
opaque Config.abandonedByte (k a : Nat) : Byte

end Sys2Proof
end

