-- ==== Sys2Proof/Machine/State.lean ====
section
/-! DEFINITION. The state of the block as plain data, its reset value, and the reasons a step can stop
(10_state.md, 70_reset_and_hazards.md). -/

namespace Sys2Proof.Machine

/-- The pixel formats of 30_encoding.md R86; codes 10 to 15 are treated exactly as the sentinel `funsup`. -/
inductive PixelFormat where
  | f400p | f420p | f420sp | f420spa | f422p | f422sp | f422spa | fuyvy | fyuyv | funsup
  deriving DecidableEq, Repr

/-- The errors of 60_exceptions.md R190 (codes 8 to 15 are never produced, so the type excludes them: 93 U3a). -/
inductive ErrCode where
  | unsup | shape | geom | alloc | overlap | illegal | nolayout
  deriving DecidableEq, Repr

/-- The stages of 43_orchestrator.md R171; `none` is id 0 (ids 8 to 15 never occur: 93 U3a). -/
inductive Stage where
  | none | s1 | s2 | s3a | s3b | s3c | s4 | s5
  deriving DecidableEq, Repr

/-- The fields of `STATUS` that hold anything; the reserved bits are stuck at 0 and not storage (10_state.md R24, 93 U1). -/
structure Status where
  busy : Bool
  done : Bool
  err : Bool
  errcode : BitVec 4
  stage : BitVec 4
  resbuf : BitVec 2
  nsteps : BitVec 3
  deriving DecidableEq, Repr

/-- The fields of `ERRINFO` (10_state.md R25). -/
structure ErrInfo where
  opc : BitVec 8
  stage : BitVec 4
  deriving DecidableEq, Repr

/-- The fields of `IRQ_EN` (10_state.md R26). -/
structure IrqEn where
  doneEn : Bool
  errEn : Bool
  deriving DecidableEq, Repr

/-- One descriptor bank, the sub-fields of its 14 registers (10_state.md R30 to R40). -/
structure Bank where
  width : BitVec 16
  height : BitVec 16
  fmt : BitVec 4
  tiled : Bool
  nbit : BitVec 5
  nlsb : BitVec 5
  tw : BitVec 8
  th : BitVec 8
  tsz : BitVec 16
  reqStride : Word
  reqIosize : Word
  yStride : Word
  uvStride : Word
  ySize : Word
  uvSize : Word
  ioSize : Word
  bufSize : Word
  base : Word
  valid : Bool
  deriving DecidableEq, Repr

/-- The three banks (10_state.md R30). -/
inductive BankId where
  | s | d | w
  deriving DecidableEq, Repr

/-- The slots of a bank (10_state.md R30). -/
inductive BankSlot where
  | width | height | format | tile | reqStride | reqIosize | yStride | uvStride | ySize | uvSize | ioSize | bufSize
  | base | valid | reserved
  deriving DecidableEq, Repr

/-- The registers of the map (10_state.md R21); `reserved` stands for every reserved slot outside the banks. -/
inductive Reg where
  | id | cmd | status | errinfo | irqEn | scr0Base | scr0Cap | scr1Base | scr1Cap
  | bank (b : BankId) (f : BankSlot)
  | reserved
  deriving DecidableEq, Repr

/-- A transaction from outside the block, one item of `State.inputs` (log 2). -/
inductive Input where
  /-- `RegRead(off)` of the given width in bits (10_state.md R20). -/
  | regRead (off width : Nat)
  /-- `RegWrite(off, v)` of the given width in bits (10_state.md R20). -/
  | regWrite (off width : Nat) (v : Word)
  /-- The host reads one byte of memory (20_memory.md R60). -/
  | memRead (a : Addr)
  /-- The host writes one byte of memory (20_memory.md R60). -/
  | memWrite (a : Addr) (b : Byte)
  /-- The platform asserts and releases `reset` (70_reset_and_hazards.md R210). -/
  | reset
  deriving DecidableEq, Repr

/-- A region of memory: base address and size in bytes (60_exceptions.md R196). -/
structure Region where
  base : Nat
  size : Nat
  deriving DecidableEq, Repr

/-- Memory as its listed bytes: addresses strictly rising, none listed with the value an unlisted one reads as. -/
abbrev Memory := List Host.Cell

/-- The whole state of the block. -/
structure State where
  /-- `CMD` (10_state.md R23). -/
  cmd : Word
  /-- `STATUS` (10_state.md R24). -/
  status : Status
  /-- `ERRINFO` (10_state.md R25). -/
  errinfo : ErrInfo
  /-- `IRQ_EN` (10_state.md R26). -/
  irqEn : IrqEn
  /-- `SCR0_BASE`, `SCR0_CAP`, `SCR1_BASE`, `SCR1_CAP` (10_state.md R27). -/
  scr0Base : Word
  scr0Cap : Word
  scr1Base : Word
  scr1Cap : Word
  /-- Banks `S`, `D`, `W` (10_state.md R30, R41). -/
  bankS : Bank
  bankD : Bank
  bankW : Bank
  /-- The memory array `M` (20_memory.md R60). -/
  mem : Memory
  /-- The regions that belong to the engine (70_reset_and_hazards.md R217; log 6). -/
  owned : List Region
  /-- The MODEL's own: how many steps of the running command's `T_CMD` are left (log 3). -/
  wait : Nat
  /-- The MODEL's own: the values of `T_CMD` for the commands still to be accepted, 0 once the list is empty (log 3). -/
  tCmds : List Nat
  /-- The MODEL's own: the transactions still to come from host and platform, in order (log 2). -/
  inputs : List Input
  /-- The MODEL's own: the value the last `RegRead` returned (log 4). -/
  regData : Word
  /-- The MODEL's own: the value the last host memory read returned (log 4). -/
  memData : Byte
  /-- The MODEL's own: how many resets have abandoned a command, the argument of `Config.abandonedByte` (log 7). -/
  epoch : Nat
  deriving DecidableEq, Repr

/-- Why the machine stops with a fault. -/
inductive Fault where
  /-- Raised by a primitive or `CONVERT` whose checks all pass and whose frame would have a byte at or past `2^32`, where
  there is no memory. Safe: 40_classifier_layout.md R113 and 60_exceptions.md R196 rule it out in every state with sound
  banks, so only a state that no run reaches takes it (log 9). -/
  | addressOutsideMemory
  deriving DecidableEq, Repr

/-- Why a step is refused. -/
inductive Refusal where
  /-- Raised only by an arm of `exec` for an instruction without a meaning yet (none is left). Safe. -/
  | notModelled (mnemonic : String)
  /-- Raised by `step` on a register transaction outside the map, misaligned, or not 32 bits wide: outside the spec
  (10_state.md R20, 93 U14; log 13). Safe. -/
  | registerAccess
  /-- Raised by `step` on a host access to a byte of a region the engine owns: a data race, outside the spec
  (70_reset_and_hazards.md R217, 93 U10; log 6). Safe. -/
  | hostRace
  deriving DecidableEq, Repr

/-- `STATUS` after reset (10_state.md R50). -/
def Status.reset : Status :=
  { busy := false, done := false, err := false, errcode := 0#4, stage := 0#4, resbuf := 0#2, nsteps := 0#3 }

/-- Every slot of a bank after reset (10_state.md R50). -/
def Bank.reset : Bank :=
  { width := 0#16, height := 0#16, fmt := 0#4, tiled := false, nbit := 0#5, nlsb := 0#5, tw := 0#8, th := 0#8,
    tsz := 0#16, reqStride := 0#32, reqIosize := 0#32, yStride := 0#32, uvStride := 0#32, ySize := 0#32,
    uvSize := 0#32, ioSize := 0#32, bufSize := 0#32, base := 0#32, valid := false }

/-- The state after reset (10_state.md R50, 70_reset_and_hazards.md R210): every register at the value R50 gives, memory
with nothing listed (log 5), the model's own fields as logs 2, 3, 4, 6 and 7 say. -/
def State.reset : State :=
  { cmd := 0#32, status := Status.reset, errinfo := { opc := 0#8, stage := 0#4 },
    irqEn := { doneEn := false, errEn := false },
    scr0Base := 0#32, scr0Cap := 0#32, scr1Base := 0#32, scr1Cap := 0#32,
    bankS := Bank.reset, bankD := Bank.reset, bankW := Bank.reset,
    mem := [], owned := [], wait := 0, tCmds := [], inputs := [], regData := 0#32, memData := 0#8, epoch := 0 }

end Sys2Proof.Machine
end

