-- ==== Sys2Proof/Machine/Ops.lean ====
section
/-! DEFINITION. The named operations over memory and registers: the memory primitives (00_scope.md R12), loops
(R13), regions (60_exceptions.md R196, R197), and command acceptance, successful completion, error entry and the
return from an error (60_exceptions.md R198 to R203). -/

namespace Sys2Proof.Machine

/-! ### Arithmetic -/

/-- `ceil_div(a, b)` for `b > 0`: the least natural `q` with `q*b >= a` (00_scope.md R9). -/
def ceilDiv (a b : Nat) : Nat := (a + b - 1) / b

/-- `v[hi:lo]`: the field of `v` from bit `hi` down to bit `lo` (00_scope.md R10). -/
def bitField (v hi lo : Nat) : Nat := (v >>> lo) % 2 ^ (hi + 1 - lo)

/-- `for k in 0..n-1`, in that order (00_scope.md R13). -/
def iterate {α : Type} (n : Nat) (f : Nat → α → α) (a : α) : α :=
  match n with
  | 0 => a
  | k + 1 => f k (iterate k f a)

/-! ### Memory -/

/-- `M[a]`: the byte listed at `a`, or the initial byte (20_memory.md R60; log 5). -/
def Memory.read (m : Memory) (a : Nat) : Byte :=
  match m with
  | [] => Config.initialByte
  | (k, c) :: rest => if a = k then c else Memory.read rest a

/-- Puts byte `b` at address `a` of a list in canonical form, and keeps the form: the initial byte is not listed. -/
def Memory.put (m : Memory) (a : Nat) (b : Byte) : Memory :=
  match m with
  | [] => if b = Config.initialByte then [] else [(a, b)]
  | (k, c) :: rest =>
    if a < k then
      if b = Config.initialByte then (k, c) :: rest else (a, b) :: (k, c) :: rest
    else if a = k then
      if b = Config.initialByte then rest else (a, b) :: rest
    else (k, c) :: Memory.put rest a b

/-- `M[a] <- b` (20_memory.md R60). There is no byte at or past `2^32` (R12: not defined there; log 9). -/
def Memory.write (m : Memory) (a : Nat) (b : Byte) : Memory :=
  if a < Config.memSize then Memory.put m a b else m

/-- The canonical form above address `lo`: addresses strictly rising, below `2^32`, no initial byte listed. -/
def Memory.wfFrom (lo : Nat) (m : Memory) : Bool :=
  match m with
  | [] => true
  | (k, c) :: rest => Nat.ble lo k && Nat.blt k Config.memSize && c != Config.initialByte && Memory.wfFrom (k + 1) rest

/-- The canonical form of memory. -/
def Memory.wf (m : Memory) : Bool := Memory.wfFrom 0 m

/-- `MemRead(addr, n)`: little-endian (00_scope.md R12, 20_memory.md R62). -/
def Memory.readLE (m : Memory) (addr n : Nat) : Nat :=
  match n with
  | 0 => 0
  | k + 1 => Memory.readLE m addr k + (Memory.read m (addr + k)).toNat * 2 ^ (8 * k)

/-- `MemWrite(addr, n, v)`: little-endian (00_scope.md R12, 20_memory.md R62). -/
def Memory.writeLE (m : Memory) (addr n v : Nat) : Memory :=
  iterate n (fun i m' => Memory.write m' (addr + i) (BitVec.ofNat 8 (v >>> (8 * i)))) m

/-- `M[dst + k] <- M[src + k]` for `k` in `0..n-1`. -/
def Memory.copyBytes (m : Memory) (dst src n : Nat) : Memory :=
  iterate n (fun k m' => Memory.write m' (dst + k) (Memory.read m' (src + k))) m

/-! ### Regions -/

/-- Address `a` lies in the region. -/
def Region.contains (r : Region) (a : Nat) : Bool := Nat.ble r.base a && Nat.blt a (r.base + r.size)

/-- The address-range check: the region ends at or below `2^32`, computed without wrap-around (60_exceptions.md R196). -/
def Region.inMemory (r : Region) : Bool := Nat.ble (r.base + r.size) Config.memSize

/-- `(a1, z1)`, `(a2, z2)` overlap iff `a1 < a2 + z2 and a2 < a1 + z1` (60_exceptions.md R197). -/
def Region.overlaps (p q : Region) : Bool := Nat.blt p.base (q.base + q.size) && Nat.blt q.base (p.base + p.size)

/-- Some two regions of the list overlap (43_orchestrator.md R175). -/
def anyOverlap : List Region → Bool
  | [] => false
  | r :: rest => rest.any r.overlaps || anyOverlap rest

/-- The frame region of a bank: `(BASE, IO_SIZE)` (20_memory.md R67, R72). -/
def Bank.region (b : Bank) : Region := { base := b.base.toNat, size := b.ioSize.toNat }

/-- Scratch buffer 0: `(SCR0_BASE, SCR0_CAP)` (10_state.md R27). -/
def State.scr0 (s : State) : Region := { base := s.scr0Base.toNat, size := s.scr0Cap.toNat }

/-- Scratch buffer 1: `(SCR1_BASE, SCR1_CAP)` (10_state.md R27). -/
def State.scr1 (s : State) : Region := { base := s.scr1Base.toNat, size := s.scr1Cap.toNat }

/-- The regions a command may touch (20_memory.md R72): none for the layout commands and `NOP` (R61); none either when
a bank has `VALID = 0`, whose derived fields no command uses (10_state.md R37). DEDUCED (log 6). -/
def State.usedRegions (s : State) (i : Instr) : List Region :=
  if s.bankS.valid && s.bankD.valid then
    match i with
    | .nop | .layoutS | .layoutD | .copylayout => []
    | .convert => [s.bankS.region, s.scr0, s.scr1]
    | .unpack10 | .pack10 | .narrow | .widen | .rescale16 | .untile8 | .tile8 | .sp2p | .p2sp | .pk2p | .p2pk
    | .resample | .rectcopy => [s.bankS.region, s.bankD.region]
  else []

/-- The regions a command is allowed to write: its destination region, or both scratch buffers for `CONVERT`
(70_reset_and_hazards.md R211). -/
def State.writableRegions (s : State) (i : Instr) : List Region :=
  if s.bankS.valid && s.bankD.valid then
    match i with
    | .nop | .layoutS | .layoutD | .copylayout => []
    | .convert => [s.scr0, s.scr1]
    | .unpack10 | .pack10 | .narrow | .widen | .rescale16 | .untile8 | .tile8 | .sp2p | .p2sp | .pk2p | .p2pk
    | .resample | .rectcopy => [s.bankD.region]
  else []

/-- The regions used by the command a word stands for; an illegal word uses none (30_encoding.md R84). -/
def State.regionsOfWord (s : State) (w : Word) : List Region :=
  match decode w with
  | .ok i => s.usedRegions i
  | .error _ => []

/-! ### Acceptance, completion, error entry and return -/

/-- The 4-bit code of an error (60_exceptions.md R190). -/
def ErrCode.code : ErrCode → BitVec 4
  | .unsup => 1#4
  | .shape => 2#4
  | .geom => 3#4
  | .alloc => 4#4
  | .overlap => 5#4
  | .illegal => 6#4
  | .nolayout => 7#4

/-- The 4-bit id of a stage (43_orchestrator.md R171). -/
def Stage.id : Stage → BitVec 4
  | .none => 0#4
  | .s1 => 1#4
  | .s2 => 2#4
  | .s3a => 3#4
  | .s3b => 4#4
  | .s3c => 5#4
  | .s4 => 6#4
  | .s5 => 7#4

/-- Acceptance of a command word (60_exceptions.md R200, 10_state.md R23). The command's regions pass to the engine
(70_reset_and_hazards.md R217; log 6) and its `T_CMD` is taken from the list (log 3). -/
def State.accept (s : State) (w : Word) : State :=
  { s with
    cmd := w
    status := { s.status with busy := true, done := false, stage := 0#4, resbuf := 0#2, nsteps := 0#3 }
    owned := s.regionsOfWord w ++ s.owned
    wait := s.tCmds.headD 0
    tCmds := s.tCmds.tail }

/-- A write to `CMD` made while `BUSY = 0`: accepted if `ERR = 0`, otherwise dropped (60_exceptions.md R200). -/
def State.writeCmd (s : State) (w : Word) : State :=
  if s.status.err then s else s.accept w

/-- Successful completion: `BUSY <- 0`, `DONE <- 1` (60_exceptions.md R201). -/
def State.complete (s : State) : State :=
  { s with status := { s.status with busy := false, done := true } }

/-- Error entry, `raise E(c)` with stage `g` (60_exceptions.md R198). Nothing else changes. -/
def State.raiseError (s : State) (c : ErrCode) (g : Stage) : State :=
  { s with
    status := { s.status with busy := false, done := false, err := true, errcode := c.code, stage := g.id }
    errinfo := { opc := opcField s.cmd, stage := g.id } }

/-- A write to `STATUS` made while `BUSY = 0`: 1 to bit 1 clears `DONE`; 1 to bit 2 is the return from an error, and
clears `ERR`, `ERRCODE` and `ERRINFO` (10_state.md R24, 60_exceptions.md R203). Other bits do nothing. -/
def State.writeStatus (s : State) (v : Word) : State :=
  { s with
    status := { s.status with
      done := s.status.done && !v.getLsbD 1
      err := s.status.err && !v.getLsbD 2
      errcode := if v.getLsbD 2 then 0#4 else s.status.errcode }
    errinfo := if v.getLsbD 2 then { opc := 0#8, stage := 0#4 } else s.errinfo }

end Sys2Proof.Machine
end

