-- ==== Sys2Proof/Machine/Classifier.lean ====
section
/-! DEFINITION. The format classifier: format codes (30_encoding.md R86), the predicates and the base format
(40_classifier_layout.md R100, R101). -/

namespace Sys2Proof.Machine

/-- The format a 4-bit code names; codes 9 to 15 are the sentinel (30_encoding.md R86). -/
def PixelFormat.ofCode (f : BitVec 4) : PixelFormat :=
  match f.toNat with
  | 0 => .f400p
  | 1 => .f420p
  | 2 => .f420sp
  | 3 => .f420spa
  | 4 => .f422p
  | 5 => .f422sp
  | 6 => .f422spa
  | 7 => .fuyvy
  | 8 => .fyuyv
  | _ => .funsup

/-- The code of a format (30_encoding.md R86). -/
def PixelFormat.code : PixelFormat → BitVec 4
  | .f400p => 0#4
  | .f420p => 1#4
  | .f420sp => 2#4
  | .f420spa => 3#4
  | .f422p => 4#4
  | .f422sp => 5#4
  | .f422spa => 6#4
  | .fuyvy => 7#4
  | .fyuyv => 8#4
  | .funsup => 9#4

/-- `is_mono(f)` (40_classifier_layout.md R100). -/
def PixelFormat.isMono : PixelFormat → Bool
  | .f400p => true
  | _ => false

/-- `is_420(f)` (40_classifier_layout.md R100). -/
def PixelFormat.is420 : PixelFormat → Bool
  | .f420p | .f420sp | .f420spa => true
  | _ => false

/-- `is_422(f)` (40_classifier_layout.md R100). -/
def PixelFormat.is422 : PixelFormat → Bool
  | .f422p | .f422sp | .f422spa | .fuyvy | .fyuyv => true
  | _ => false

/-- `is_packed(f)` (40_classifier_layout.md R100). -/
def PixelFormat.isPacked : PixelFormat → Bool
  | .fuyvy | .fyuyv => true
  | _ => false

/-- `is_planar(f)`: chroma in two separate planes, so false for `F400P` (40_classifier_layout.md R100). -/
def PixelFormat.isPlanar : PixelFormat → Bool
  | .f420p | .f422p => true
  | _ => false

/-- `is_semiplanar(f)` (40_classifier_layout.md R100). -/
def PixelFormat.isSemiplanar : PixelFormat → Bool
  | .f420sp | .f420spa | .f422sp | .f422spa => true
  | _ => false

/-- `is_supported(f)` (40_classifier_layout.md R100). -/
def PixelFormat.isSupported : PixelFormat → Bool
  | .funsup => false
  | _ => true

/-- `base_format(f)` (40_classifier_layout.md R101). -/
def PixelFormat.base : PixelFormat → PixelFormat
  | .f400p => .f400p
  | .f420p | .f420sp | .f420spa => .f420p
  | .f422p | .f422sp | .f422spa | .fuyvy | .fyuyv => .f422p
  | .funsup => .funsup

end Sys2Proof.Machine
end

