-- ==== Sys2Proof/Machine/Operands.lean ====
section
/-! DEFINITION. The operands of a command: descriptor values (00_scope.md R11), the planes of a frame
(20_memory.md R67), sample addresses (R68 to R71), effective active bits (41_codec.md R122) and storage rows
(42_remapper.md R157). -/

namespace Sys2Proof.Machine

/-- The arguments of `layout`: a bank's request fields and capacity as naturals (40_classifier_layout.md R105). -/
structure Request where
  width : Nat
  height : Nat
  fmt : PixelFormat
  nbit : Nat
  nlsb : Nat
  tiled : Bool
  tw : Nat
  th : Nat
  tsz : Nat
  reqStride : Nat
  reqIosize : Nat
  bufSize : Nat
  deriving DecidableEq, Repr

/-- The five derived fields (10_state.md R37). -/
structure Derived where
  yStride : Nat
  uvStride : Nat
  ySize : Nat
  uvSize : Nat
  ioSize : Nat
  deriving DecidableEq, Repr

/-- A descriptor value `d` (00_scope.md R11). -/
structure Desc extends Request, Derived where
  base : Nat
  deriving DecidableEq, Repr

/-- The request fields and `BUF_SIZE` of a bank, each an unsigned natural of its field width (30_encoding.md R82). -/
def Bank.request (b : Bank) : Request :=
  { width := b.width.toNat, height := b.height.toNat, fmt := PixelFormat.ofCode b.fmt, nbit := b.nbit.toNat,
    nlsb := b.nlsb.toNat, tiled := b.tiled, tw := b.tw.toNat, th := b.th.toNat, tsz := b.tsz.toNat,
    reqStride := b.reqStride.toNat, reqIosize := b.reqIosize.toNat, bufSize := b.bufSize.toNat }

/-- The derived fields of a bank. -/
def Bank.derived (b : Bank) : Derived :=
  { yStride := b.yStride.toNat, uvStride := b.uvStride.toNat, ySize := b.ySize.toNat, uvSize := b.uvSize.toNat,
    ioSize := b.ioSize.toNat }

/-- `desc(B)`: the record read from bank `B` (00_scope.md R11). -/
def Bank.desc (b : Bank) : Desc :=
  { toRequest := b.request, toDerived := b.derived, base := b.base.toNat }

/-- The bank with new derived fields and `VALID = 1` (40_classifier_layout.md R115). -/
def Bank.setLayout (b : Bank) (r : Derived) : Bank :=
  { b with
    yStride := BitVec.ofNat 32 r.yStride
    uvStride := BitVec.ofNat 32 r.uvStride
    ySize := BitVec.ofNat 32 r.ySize
    uvSize := BitVec.ofNat 32 r.uvSize
    ioSize := BitVec.ofNat 32 r.ioSize
    valid := true }

/-- The bank with the six request fields of `b'` (40_classifier_layout.md R117). -/
def Bank.setRequest (b b' : Bank) : Bank :=
  { b with
    width := b'.width
    height := b'.height
    fmt := b'.fmt
    tiled := b'.tiled
    nbit := b'.nbit
    nlsb := b'.nlsb
    tw := b'.tw
    th := b'.th
    tsz := b'.tsz
    reqStride := b'.reqStride
    reqIosize := b'.reqIosize }

/-- `B <- d` with `VALID = 1`: every field of `d` into the bank (00_scope.md R11, 43_orchestrator.md R175, R180). -/
def Bank.ofDesc (d : Desc) : Bank :=
  { width := BitVec.ofNat 16 d.width, height := BitVec.ofNat 16 d.height, fmt := d.fmt.code, tiled := d.tiled,
    nbit := BitVec.ofNat 5 d.nbit, nlsb := BitVec.ofNat 5 d.nlsb, tw := BitVec.ofNat 8 d.tw,
    th := BitVec.ofNat 8 d.th, tsz := BitVec.ofNat 16 d.tsz, reqStride := BitVec.ofNat 32 d.reqStride,
    reqIosize := BitVec.ofNat 32 d.reqIosize, yStride := BitVec.ofNat 32 d.yStride,
    uvStride := BitVec.ofNat 32 d.uvStride, ySize := BitVec.ofNat 32 d.ySize, uvSize := BitVec.ofNat 32 d.uvSize,
    ioSize := BitVec.ofNat 32 d.ioSize, bufSize := BitVec.ofNat 32 d.bufSize, base := BitVec.ofNat 32 d.base,
    valid := true }

/-- Effective active bits: `eab(d) = 16 if d.nlsb = 0 else d.nlsb` (41_codec.md R122). -/
def Desc.eab (d : Desc) : Nat := if d.nlsb = 0 then 16 else d.nlsb

/-- The frame region of a descriptor: `(base, io_size)` (20_memory.md R67). -/
def Desc.region (d : Desc) : Region := { base := d.base, size := d.ioSize }

/-- Chroma rows `ch`: `h/2` if `is_420(fmt)`, else `h` (40_classifier_layout.md R102). -/
def Request.chromaRows (r : Request) : Nat := if r.fmt.is420 then r.height / 2 else r.height

/-- One plane of a frame: byte offset from the base, stride in bytes, samples per row, rows (20_memory.md R67). -/
structure Plane where
  off : Nat
  stride : Nat
  ws : Nat
  rows : Nat
  deriving DecidableEq, Repr

/-- `planes(d)` (20_memory.md R67). A frame of the sentinel format has none. -/
def planes (d : Desc) : List Plane :=
  match d.fmt with
  | .f400p => [{ off := 0, stride := d.yStride, ws := d.width, rows := d.height }]
  | .f420p | .f422p =>
    [{ off := 0, stride := d.yStride, ws := d.width, rows := d.height },
     { off := d.ySize, stride := d.uvStride, ws := d.width / 2, rows := d.chromaRows },
     { off := d.ySize + d.uvSize, stride := d.uvStride, ws := d.width / 2, rows := d.chromaRows }]
  | .f420sp | .f420spa | .f422sp | .f422spa =>
    [{ off := 0, stride := d.yStride, ws := d.width, rows := d.height },
     { off := d.ySize, stride := d.uvStride, ws := d.width, rows := d.chromaRows }]
  | .fuyvy | .fyuyv => [{ off := 0, stride := d.yStride, ws := 2 * d.width, rows := d.height }]
  | .funsup => []

/-- `planes(d)[i]`; every use has `i` below the length of the list, past which the plane is empty. -/
def plane (d : Desc) (i : Nat) : Plane := (planes d).getD i { off := 0, stride := 0, ws := 0, rows := 0 }

/-- Address of storage row `y` of a plane (20_memory.md R68, R69). -/
def rowAddr (d : Desc) (p : Plane) (y : Nat) : Nat := d.base + p.off + y * p.stride

/-- `saddr(d, p, x, y)`: sample `(x, y)` of a raster plane with `b`-byte samples (20_memory.md R68). -/
def sampleAddr (d : Desc) (p : Plane) (b x y : Nat) : Nat := rowAddr d p y + x * b

/-- `taddr8(d, p, x, y)`: sample `(x, y)` of an 8-bit tiled plane (20_memory.md R70). -/
def tileAddr8 (d : Desc) (p : Plane) (x y : Nat) : Nat :=
  d.base + p.off + (y / 4) * p.stride + (x / 8) * 32 + 8 * (y % 4) + x % 8

/-- Address of the 32-bit word that holds sample `(x, y)` of a compact 10-bit tiled plane (20_memory.md R71). -/
def tileWordAddr10 (d : Desc) (p : Plane) (x y : Nat) : Nat :=
  d.base + p.off + (y / 4) * p.stride + (x / 3) * 16 + 4 * (y % 4)

/-- `srows(d, p)`: storage rows of a plane (42_remapper.md R157). -/
def storageRows (d : Desc) (p : Plane) : Nat := if d.tiled then ceilDiv p.rows d.th else p.rows

/-- `rowbytes(d, p)`: natural byte length of a storage row (42_remapper.md R157). -/
def rowBytes (d : Desc) (p : Plane) : Nat :=
  if d.tiled then ceilDiv p.ws d.tw * d.tsz else ceilDiv (p.ws * d.nbit) 8

/-- The offset past the last byte of a plane's storage rows, 0 for a plane without bytes. -/
def planeEnd (d : Desc) (p : Plane) : Nat :=
  if storageRows d p = 0 ∨ rowBytes d p = 0 then 0 else p.off + (storageRows d p - 1) * p.stride + rowBytes d p

/-- Every byte of the frame's planes lies in memory; `MemRead` and `MemWrite` are defined only there (00_scope.md R12,
60_exceptions.md R196; log 9). -/
def Desc.inMemory (d : Desc) : Bool := (planes d).all fun p => Nat.ble (d.base + planeEnd d p) Config.memSize

end Sys2Proof.Machine
end

