-- ==== Sys2Proof/Machine/Layout.lean ====
section
/-! DEFINITION. The layout calculator (40_classifier_layout.md R105 to R112) and the commands `NOP`, `LAYOUT.S`,
`LAYOUT.D` and `COPYLAYOUT` (R104, R115 to R117). -/

namespace Sys2Proof.Machine

/-- The tile geometry `(tw, th, tsz)` is the legal one for the depth: `(8, 4, 32)` for 8-bit samples, `(3, 4, 16)` for
compact 10-bit ones (40_classifier_layout.md R110 check L10). -/
def Request.geometryLegal (r : Request) : Bool :=
  (r.nbit == 8 && r.tw == 8 && r.th == 4 && r.tsz == 32) || (r.nbit == 10 && r.tw == 3 && r.th == 4 && r.tsz == 16)

/-- The ten checks L1 to L10 in their order; the first that fails decides the error (40_classifier_layout.md R110). -/
def layoutCheck (r : Request) : Option ErrCode :=
  if !r.fmt.isSupported then some .unsup
  else if r.nbit ≠ 8 ∧ r.nbit ≠ 10 ∧ r.nbit ≠ 16 then some .unsup
  else if r.nlsb > r.nbit then some .unsup
  else if r.tiled ∧ r.nbit = 16 then some .unsup
  else if r.tiled ∧ r.fmt.isPacked then some .unsup
  else if r.width = 0 ∨ r.height = 0 then some .geom
  else if !r.fmt.isMono ∧ r.width % 2 = 1 then some .geom
  else if r.fmt.is420 ∧ r.height % 2 = 1 then some .geom
  else if r.tiled ∧ r.tsz % 8 ≠ 0 then some .geom
  else if r.tiled ∧ !r.geometryLegal then some .geom
  else none

/-- `ys0`, the luma stride before the request is applied (40_classifier_layout.md R107). -/
def Request.naturalStride (r : Request) : Nat :=
  if r.tiled then ceilDiv r.width r.tw * r.tsz
  else if r.fmt.isPacked then 2 * ceilDiv (r.width * r.nbit) 8
  else ceilDiv (r.width * r.nbit) 8

/-- `lrows`: tile rows of a tiled plane, rows of a raster one (40_classifier_layout.md R107). -/
def Request.lumaRows (r : Request) : Nat := if r.tiled then ceilDiv r.height r.th else r.height

/-- `y_stride` (40_classifier_layout.md R107). -/
def Request.lumaStride (r : Request) : Nat := max r.naturalStride r.reqStride

/-- `y_size` (40_classifier_layout.md R107). -/
def Request.lumaSize (r : Request) : Nat := r.lumaStride * r.lumaRows

/-- `uv_stride` (40_classifier_layout.md R108). -/
def Request.chromaStride (r : Request) : Nat :=
  if r.fmt.isMono || r.fmt.isPacked then 0
  else if r.fmt.isSemiplanar then r.lumaStride
  else if r.tiled then ceilDiv (r.width / 2) r.tw * r.tsz
  else ceilDiv r.lumaStride 2

/-- `uv_size` (40_classifier_layout.md R109). -/
def Request.chromaSize (r : Request) : Nat :=
  if r.chromaStride = 0 then 0
  else if r.tiled then r.chromaStride * ceilDiv r.chromaRows r.th
  else r.chromaStride * r.chromaRows

/-- `nch`, how many chroma planes the frame has (40_classifier_layout.md R111). -/
def PixelFormat.chromaPlanes (f : PixelFormat) : Nat :=
  if f.isPlanar then 2 else if f.isSemiplanar then 1 else 0

/-- `io_size` (40_classifier_layout.md R111). -/
def Request.frameSize (r : Request) : Nat :=
  max (r.lumaSize + r.fmt.chromaPlanes * r.chromaSize) r.reqIosize

/-- The derived fields of a request (40_classifier_layout.md R107 to R111). -/
def Request.derive (r : Request) : Derived :=
  { yStride := r.lumaStride, uvStride := r.chromaStride, ySize := r.lumaSize, uvSize := r.chromaSize,
    ioSize := r.frameSize }

/-- `layout(...)`: the checks, the computations, the capacity check (40_classifier_layout.md R105, R112). -/
def layout (r : Request) : Except ErrCode Derived :=
  match layoutCheck r with
  | some c => .error c
  | none => if r.frameSize > r.bufSize then .error .alloc else .ok r.derive

/-- `NOP` (40_classifier_layout.md R104). -/
def execNop (s : State) : Host.Outcome State Fault Refusal := .next s.complete

/-- `LAYOUT.S` (40_classifier_layout.md R115). -/
def execLayoutS (s : State) : Host.Outcome State Fault Refusal :=
  match layout s.bankS.request with
  | .error c => .next (s.raiseError c .none)
  | .ok r => .next (State.complete { s with bankS := s.bankS.setLayout r })

/-- `LAYOUT.D` (40_classifier_layout.md R116). -/
def execLayoutD (s : State) : Host.Outcome State Fault Refusal :=
  match layout s.bankD.request with
  | .error c => .next (s.raiseError c .none)
  | .ok r => .next (State.complete { s with bankD := s.bankD.setLayout r })

/-- `COPYLAYOUT` (40_classifier_layout.md R117): the layout of `S`'s request fields against `D`'s own capacity. -/
def execCopylayout (s : State) : Host.Outcome State Fault Refusal :=
  match layout { s.bankS.request with bufSize := s.bankD.bufSize.toNat } with
  | .error c => .next (s.raiseError c .none)
  | .ok r => .next (State.complete { s with bankD := (s.bankD.setRequest s.bankS).setLayout r })

end Sys2Proof.Machine
end

