-- ==== Sys2Proof/Machine/Primitive.lean ====
section
/-! DEFINITION. What every primitive command shares: its form, its check sequence and how it runs
(41_codec.md R120, R121). -/

namespace Sys2Proof.Machine

/-- A primitive: its admissibility predicate, whether it needs equal depth, and its memory body (41_codec.md R120,
R121). -/
structure Primitive where
  admissible : Desc → Desc → Bool
  equalDepth : Bool
  body : Desc → Desc → Memory → Memory

/-- `check_primitive(OP, s, d)`: admissibility, shape, address range, overlap, in that order (41_codec.md R121). -/
def checkPrimitive (p : Primitive) (s d : Desc) : Option ErrCode :=
  if !p.admissible s d then some .unsup
  else if s.width ≠ d.width ∨ s.height ≠ d.height ∨ (p.equalDepth ∧ s.nbit ≠ d.nbit) then some .shape
  else if !s.region.inMemory || !d.region.inMemory then some .alloc
  else if s.region.overlaps d.region then some .overlap
  else none

/-- How a primitive command runs (41_codec.md R120): `NOLAYOUT`, the checks, then the body on memory alone. -/
def runPrimitive (p : Primitive) (s : State) : Host.Outcome State Fault Refusal :=
  if !(s.bankS.valid && s.bankD.valid) then .next (s.raiseError .nolayout .none)
  else
    match checkPrimitive p s.bankS.desc s.bankD.desc with
    | some c => .next (s.raiseError c .none)
    | none =>
      if s.bankS.desc.inMemory && s.bankD.desc.inMemory then
        .next (State.complete { s with mem := p.body s.bankS.desc s.bankD.desc s.mem })
      else .fault .addressOutsideMemory

end Sys2Proof.Machine
end

