-- ==== Sys2Proof/Machine/Codec.lean ====
section
/-! DEFINITION. The bit-depth codec: `UNPACK10`, `PACK10`, `NARROW`, `WIDEN`, `RESCALE16` (41_codec.md). -/

namespace Sys2Proof.Machine

/-! ### Loops over a frame -/

/-- `for i in 0..len(planes(s))-1: for y in 0..ps.rows-1:` with the planes of both frames (41_codec.md R124, R131). -/
def forRows (s d : Desc) (f : Plane → Plane → Nat → Memory → Memory) (m : Memory) : Memory :=
  iterate (planes s).length (fun i m1 => iterate (plane s i).rows (fun y m2 => f (plane s i) (plane d i) y m2) m1) m

/-- The body shared by `NARROW`, `WIDEN` and `RESCALE16`: every `rb`-byte sample of the source, through `f`, to the
`wb`-byte sample at the same place of the destination (41_codec.md R131 to R134). -/
def mapSamples (rb wb : Nat) (f : Nat → Nat) (s d : Desc) (m : Memory) : Memory :=
  forRows s d (fun ps pd y m1 =>
    iterate ps.ws (fun x m2 =>
      Memory.writeLE m2 (sampleAddr d pd wb x y) wb (f (Memory.readLE m2 (sampleAddr s ps rb x y) rb))) m1) m

/-! ### Compact 10-bit rows -/

/-- `fetch_word(ra, m, L)`: bytes at or past `L` count as 0 and are not read (41_codec.md R123). -/
def fetchWord (mem : Memory) (ra m l : Nat) : Nat :=
  iterate 4 (fun b acc =>
    if 4 * m + b < l then acc + ((Memory.read mem (ra + 4 * m + b)).toNat <<< (8 * b)) else acc) 0

/-- `unpack_row` from a state of the accumulator `acc`, the valid-bit counter `nv` and the word index `m`, with `n`
samples to go (41_codec.md R123, 10_state.md R46). -/
def unpackFrom (mem : Memory) (ra l n acc nv m : Nat) : List Nat :=
  match n with
  | 0 => []
  | k + 1 =>
    if nv < 10 then
      bitField (acc ||| (fetchWord mem ra m l <<< nv)) 9 0 ::
        unpackFrom mem ra l k ((acc ||| (fetchWord mem ra m l <<< nv)) >>> 10) (nv + 32 - 10) (m + 1)
    else bitField acc 9 0 :: unpackFrom mem ra l k (acc >>> 10) (nv - 10) m

/-- `unpack_row(ra, n)` (41_codec.md R123). -/
def unpackRow (mem : Memory) (ra n : Nat) : List Nat := unpackFrom mem ra (ceilDiv (10 * n) 8) n 0 0 0

/-- `store_word(ra, m, L, word)`: bytes at or past `L` are not written (41_codec.md R127). -/
def storeWord (mem : Memory) (ra m l word : Nat) : Memory :=
  iterate 4 (fun b mem1 =>
    if 4 * m + b < l then Memory.write mem1 (ra + 4 * m + b) (BitVec.ofNat 8 (bitField word (8 * b + 7) (8 * b)))
    else mem1) mem

/-- `pack_row` from a state of the accumulator, the counter and the word index, with the values still to come
(41_codec.md R127). -/
def packFrom (mem : Memory) (ra l : Nat) (v : List Nat) (acc nv m : Nat) : Memory :=
  match v with
  | [] => if nv > 0 then storeWord mem ra m l (bitField acc 31 0) else mem
  | x :: rest =>
    if nv + 10 ≥ 32 then
      packFrom (storeWord mem ra m l (bitField (acc ||| (bitField x 9 0 <<< nv)) 31 0)) ra l rest
        ((acc ||| (bitField x 9 0 <<< nv)) >>> 32) (nv + 10 - 32) (m + 1)
    else packFrom mem ra l rest (acc ||| (bitField x 9 0 <<< nv)) (nv + 10) m

/-- `pack_row(ra, v, n)` with `n` the length of `v` (41_codec.md R127). -/
def packRow (mem : Memory) (ra : Nat) (v : List Nat) : Memory := packFrom mem ra (ceilDiv (10 * v.length) 8) v 0 0 0

/-! ### UNPACK10 -/

/-- `admissible_UNPACK10(s, d)` (41_codec.md R124). -/
def admissibleUnpack10 (s d : Desc) : Bool := s.nbit == 10 && d.nbit == 16 && d.nlsb == 10 && s.fmt == d.fmt

/-- Writes the values of a row as 16-bit samples from address `a` on (41_codec.md R124). -/
def writeRow16 (m : Memory) (a : Nat) (v : List Nat) : Memory :=
  match v with
  | [] => m
  | x :: rest => writeRow16 (Memory.writeLE m a 2 x) (a + 2) rest

/-- `body_UNPACK10(s, d)` (41_codec.md R124). -/
def bodyUnpack10 (s d : Desc) (m : Memory) : Memory :=
  forRows s d (fun ps pd y m1 =>
    if s.tiled then
      iterate ps.ws (fun x m2 =>
        Memory.writeLE m2 (sampleAddr d pd 2 x y) 2
          (bitField (Memory.readLE m2 (tileWordAddr10 s ps x y) 4 >>> (10 * (x % 3))) 9 0)) m1
    else writeRow16 m1 (rowAddr d pd y) (unpackRow m1 (rowAddr s ps y) ps.ws)) m

/-- `UNPACK10` as a primitive. -/
def primUnpack10 : Primitive := { admissible := admissibleUnpack10, equalDepth := false, body := bodyUnpack10 }

/-- `UNPACK10` (41_codec.md R124). -/
def execUnpack10 (s : State) : Host.Outcome State Fault Refusal := runPrimitive primUnpack10 s

/-! ### PACK10 -/

/-- `admissible_PACK10(s, d)` (41_codec.md R128). -/
def admissiblePack10 (s d : Desc) : Bool := s.nbit == 16 && s.nlsb == 10 && d.nbit == 10 && s.fmt == d.fmt

/-- The 16-bit samples of a raster row (41_codec.md R128). -/
def readRow16 (m : Memory) (a n : Nat) : List Nat :=
  match n with
  | 0 => []
  | k + 1 => Memory.readLE m a 2 :: readRow16 m (a + 2) k

/-- The word of row `r` of tile cell `(tx, ty)`, pad samples 0 (41_codec.md R128). -/
def tileWord10 (s : Desc) (ps : Plane) (m : Memory) (tx ty r : Nat) : Nat :=
  iterate 3 (fun c word =>
    if 3 * tx + c < ps.ws ∧ 4 * ty + r < ps.rows then
      word ||| (bitField (Memory.readLE m (sampleAddr s ps 2 (3 * tx + c) (4 * ty + r)) 2) 9 0 <<< (10 * c))
    else word) 0

/-- The tiled form of one plane of `PACK10` (41_codec.md R128). -/
def packPlaneTiled (s d : Desc) (ps pd : Plane) (m : Memory) : Memory :=
  iterate (ceilDiv pd.rows 4) (fun ty m1 =>
    iterate (ceilDiv pd.ws 3) (fun tx m2 =>
      iterate 4 (fun r m3 =>
        Memory.writeLE m3 (d.base + pd.off + ty * pd.stride + tx * 16 + 4 * r) 4 (tileWord10 s ps m3 tx ty r)) m2) m1) m

/-- `body_PACK10(s, d)` (41_codec.md R128). -/
def bodyPack10 (s d : Desc) (m : Memory) : Memory :=
  if d.tiled then
    iterate (planes s).length (fun i m1 => packPlaneTiled s d (plane s i) (plane d i) m1) m
  else
    forRows s d (fun ps pd y m1 => packRow m1 (rowAddr d pd y) (readRow16 m1 (rowAddr s ps y) ps.ws)) m

/-- `PACK10` as a primitive. -/
def primPack10 : Primitive := { admissible := admissiblePack10, equalDepth := false, body := bodyPack10 }

/-- `PACK10` (41_codec.md R128). -/
def execPack10 (s : State) : Host.Outcome State Fault Refusal := runPrimitive primPack10 s

/-! ### NARROW, WIDEN, RESCALE16 -/

/-- `admissible_NARROW(s, d)` (41_codec.md R131). -/
def admissibleNarrow (s d : Desc) : Bool :=
  s.nbit == 16 && d.nbit == 8 && !d.tiled && s.fmt == d.fmt && Nat.ble 8 s.eab

/-- One sample of `NARROW` (41_codec.md R131). -/
def narrowSample (sh v : Nat) : Nat := bitField (v >>> sh) 7 0

/-- `body_NARROW(s, d)` (41_codec.md R131). -/
def bodyNarrow (s d : Desc) (m : Memory) : Memory := mapSamples 2 1 (narrowSample (s.eab - 8)) s d m

/-- `NARROW` as a primitive. -/
def primNarrow : Primitive := { admissible := admissibleNarrow, equalDepth := false, body := bodyNarrow }

/-- `NARROW` (41_codec.md R131). -/
def execNarrow (s : State) : Host.Outcome State Fault Refusal := runPrimitive primNarrow s

/-- `admissible_WIDEN(s, d)` (41_codec.md R132). -/
def admissibleWiden (s d : Desc) : Bool :=
  s.nbit == 8 && !s.tiled && d.nbit == 16 && s.fmt == d.fmt && Nat.ble 8 d.eab

/-- One sample of `WIDEN`: a 16-bit left shift keeps the low 16 bits (41_codec.md R132, 00_scope.md R9). -/
def widenSample (sh v : Nat) : Nat := bitField (v <<< sh) 15 0

/-- `body_WIDEN(s, d)` (41_codec.md R132). -/
def bodyWiden (s d : Desc) (m : Memory) : Memory := mapSamples 1 2 (widenSample (d.eab - 8)) s d m

/-- `WIDEN` as a primitive. -/
def primWiden : Primitive := { admissible := admissibleWiden, equalDepth := false, body := bodyWiden }

/-- `WIDEN` (41_codec.md R132). -/
def execWiden (s : State) : Host.Outcome State Fault Refusal := runPrimitive primWiden s

/-- `admissible_RESCALE16(s, d)` (41_codec.md R133). -/
def admissibleRescale16 (s d : Desc) : Bool := s.nbit == 16 && d.nbit == 16 && s.fmt == d.fmt

/-- One sample of `RESCALE16` from `es` to `ed` effective active bits (41_codec.md R133). -/
def rescaleSample (es ed v : Nat) : Nat :=
  if es ≤ ed then bitField (v <<< (ed - es)) 15 0 else v >>> (es - ed)

/-- `body_RESCALE16(s, d)` (41_codec.md R133). -/
def bodyRescale16 (s d : Desc) (m : Memory) : Memory := mapSamples 2 2 (rescaleSample s.eab d.eab) s d m

/-- `RESCALE16` as a primitive. -/
def primRescale16 : Primitive := { admissible := admissibleRescale16, equalDepth := false, body := bodyRescale16 }

/-- `RESCALE16` (41_codec.md R133). -/
def execRescale16 (s : State) : Host.Outcome State Fault Refusal := runPrimitive primRescale16 s

end Sys2Proof.Machine
end

