-- ==== Sys2Proof/Machine/Remapper.lean ====
section
/-! DEFINITION. The plane remapper: `UNTILE8`, `TILE8`, `SP2P`, `P2SP`, `PK2P`, `P2PK`, `RESAMPLE`, `RECTCOPY`
(42_remapper.md). -/

namespace Sys2Proof.Machine

/-! ### Common helpers -/

/-- `rm_ok(d)` (42_remapper.md R140). -/
def Desc.rmOk (d : Desc) : Bool := (d.nbit == 8 || d.nbit == 16) && !d.tiled

/-- `sb(d)`: the sample size in bytes (42_remapper.md R140). -/
def Desc.sb (d : Desc) : Nat := d.nbit / 8

/-- Moves the `b`-byte sample at `src` to `dst`. -/
def Memory.moveSample (m : Memory) (b dst src : Nat) : Memory := Memory.writeLE m dst b (Memory.readLE m src b)

/-- `copy_plane(s, ps, d, pd, b, rowmap)` (42_remapper.md R141). -/
def copyPlane (s : Desc) (ps : Plane) (d : Desc) (pd : Plane) (b : Nat) (rowmap : Nat → Nat) (m : Memory) : Memory :=
  iterate pd.rows (fun y m1 => Memory.copyBytes m1 (rowAddr d pd y) (rowAddr s ps (rowmap y)) (pd.ws * b)) m

/-- `for y in 0..rows-1: for p in 0..n-1:` of the pair and group loops (42_remapper.md R147, R151). -/
def forPairs (rows n : Nat) (f : Nat → Nat → Memory → Memory) (m : Memory) : Memory :=
  iterate rows (fun y m1 => iterate n (fun p m2 => f y p m2) m1) m

/-- The loops over tile cells and the positions inside them (42_remapper.md R143, R144). -/
def forCells (rows ws : Nat) (f : Nat → Nat → Nat → Nat → Memory → Memory) (m : Memory) : Memory :=
  iterate (ceilDiv rows 4) (fun ty m1 =>
    iterate (ceilDiv ws 8) (fun tx m2 =>
      iterate 4 (fun r m3 => iterate 8 (fun c m4 => f ty tx r c m4) m3) m2) m1) m

/-! ### UNTILE8 and TILE8 -/

/-- `admissible_UNTILE8(s, d)` (42_remapper.md R143). -/
def admissibleUntile8 (s d : Desc) : Bool := s.nbit == 8 && s.tiled && d.nbit == 8 && !d.tiled && s.fmt == d.fmt

/-- `body_UNTILE8(s, d)` (42_remapper.md R143). -/
def bodyUntile8 (s d : Desc) (m : Memory) : Memory :=
  iterate (planes s).length (fun i m0 =>
    forCells (plane s i).rows (plane s i).ws (fun ty tx r c m1 =>
      if 8 * tx + c < (plane s i).ws ∧ 4 * ty + r < (plane s i).rows then
        Memory.write m1 (sampleAddr d (plane d i) 1 (8 * tx + c) (4 * ty + r))
          (Memory.read m1 (s.base + (plane s i).off + ty * (plane s i).stride + tx * 32 + 8 * r + c))
      else m1) m0) m

/-- `UNTILE8` as a primitive. -/
def primUntile8 : Primitive := { admissible := admissibleUntile8, equalDepth := false, body := bodyUntile8 }

/-- `UNTILE8` (42_remapper.md R143). -/
def execUntile8 (s : State) : Host.Outcome State Fault Refusal := runPrimitive primUntile8 s

/-- `admissible_TILE8(s, d)` (42_remapper.md R144). -/
def admissibleTile8 (s d : Desc) : Bool := s.nbit == 8 && !s.tiled && d.nbit == 8 && d.tiled && s.fmt == d.fmt

/-- `body_TILE8(s, d)`: pad samples are written 0 (42_remapper.md R144). -/
def bodyTile8 (s d : Desc) (m : Memory) : Memory :=
  iterate (planes s).length (fun i m0 =>
    forCells (plane d i).rows (plane d i).ws (fun ty tx r c m1 =>
      Memory.write m1 (d.base + (plane d i).off + ty * (plane d i).stride + tx * 32 + 8 * r + c)
        (if 8 * tx + c < (plane s i).ws ∧ 4 * ty + r < (plane s i).rows then
          Memory.read m1 (sampleAddr s (plane s i) 1 (8 * tx + c) (4 * ty + r))
        else 0#8)) m0) m

/-- `TILE8` as a primitive. -/
def primTile8 : Primitive := { admissible := admissibleTile8, equalDepth := false, body := bodyTile8 }

/-- `TILE8` (42_remapper.md R144). -/
def execTile8 (s : State) : Host.Outcome State Fault Refusal := runPrimitive primTile8 s

/-! ### SP2P and P2SP -/

/-- `first(f)`: the planar plane of the even sample of a pair (42_remapper.md R146). -/
def PixelFormat.first : PixelFormat → Nat
  | .f420spa | .f422spa => 2
  | _ => 1

/-- `second(f)`: the planar plane of the odd sample of a pair (42_remapper.md R146). -/
def PixelFormat.second : PixelFormat → Nat
  | .f420spa | .f422spa => 1
  | _ => 2

/-- `admissible_SP2P(s, d)` (42_remapper.md R147). -/
def admissibleSp2p (s d : Desc) : Bool := s.rmOk && d.rmOk && s.fmt.isSemiplanar && d.fmt == s.fmt.base

/-- `body_SP2P(s, d)` (42_remapper.md R147). -/
def bodySp2p (s d : Desc) (m : Memory) : Memory :=
  forPairs (plane s 1).rows ((plane s 1).ws / 2) (fun y i m1 =>
    Memory.moveSample
      (Memory.moveSample m1 s.sb (sampleAddr d (plane d s.fmt.first) s.sb i y) (sampleAddr s (plane s 1) s.sb (2 * i) y))
      s.sb (sampleAddr d (plane d s.fmt.second) s.sb i y) (sampleAddr s (plane s 1) s.sb (2 * i + 1) y))
    (copyPlane s (plane s 0) d (plane d 0) s.sb id m)

/-- `SP2P` as a primitive. -/
def primSp2p : Primitive := { admissible := admissibleSp2p, equalDepth := true, body := bodySp2p }

/-- `SP2P` (42_remapper.md R147). -/
def execSp2p (s : State) : Host.Outcome State Fault Refusal := runPrimitive primSp2p s

/-- `admissible_P2SP(s, d)` (42_remapper.md R148). -/
def admissibleP2sp (s d : Desc) : Bool := s.rmOk && d.rmOk && d.fmt.isSemiplanar && s.fmt == d.fmt.base

/-- `body_P2SP(s, d)` (42_remapper.md R148). -/
def bodyP2sp (s d : Desc) (m : Memory) : Memory :=
  forPairs (plane d 1).rows ((plane d 1).ws / 2) (fun y i m1 =>
    Memory.moveSample
      (Memory.moveSample m1 s.sb (sampleAddr d (plane d 1) s.sb (2 * i) y) (sampleAddr s (plane s d.fmt.first) s.sb i y))
      s.sb (sampleAddr d (plane d 1) s.sb (2 * i + 1) y) (sampleAddr s (plane s d.fmt.second) s.sb i y))
    (copyPlane s (plane s 0) d (plane d 0) s.sb id m)

/-- `P2SP` as a primitive. -/
def primP2sp : Primitive := { admissible := admissibleP2sp, equalDepth := true, body := bodyP2sp }

/-- `P2SP` (42_remapper.md R148). -/
def execP2sp (s : State) : Host.Outcome State Fault Refusal := runPrimitive primP2sp s

/-! ### PK2P and P2PK -/

/-- The positions `iy0, iu, iy1, iv` inside a group, in samples (42_remapper.md R150; log 12). -/
structure GroupOrder where
  iy0 : Nat
  iu : Nat
  iy1 : Nat
  iv : Nat
  deriving DecidableEq, Repr

/-- The group order of a packed-interleaved format (42_remapper.md R150; log 12). -/
def PixelFormat.groupOrder : PixelFormat → GroupOrder
  | .fuyvy => { iy0 := 1, iu := 0, iy1 := 3, iv := 2 }
  | _ => { iy0 := 0, iu := 1, iy1 := 2, iv := 3 }

/-- `admissible_PK2P(s, d)` (42_remapper.md R151). -/
def admissiblePk2p (s d : Desc) : Bool := s.rmOk && d.rmOk && s.fmt.isPacked && d.fmt == .f422p

/-- One group of `PK2P`: two luma samples, one `U`, one `V` (42_remapper.md R151). -/
def unpackGroup (s d : Desc) (y p : Nat) (m : Memory) : Memory :=
  Memory.moveSample
    (Memory.moveSample
      (Memory.moveSample
        (Memory.moveSample m s.sb (sampleAddr d (plane d 0) s.sb (2 * p) y)
          (sampleAddr s (plane s 0) s.sb (4 * p + s.fmt.groupOrder.iy0) y))
        s.sb (sampleAddr d (plane d 0) s.sb (2 * p + 1) y)
        (sampleAddr s (plane s 0) s.sb (4 * p + s.fmt.groupOrder.iy1) y))
      s.sb (sampleAddr d (plane d 1) s.sb p y) (sampleAddr s (plane s 0) s.sb (4 * p + s.fmt.groupOrder.iu) y))
    s.sb (sampleAddr d (plane d 2) s.sb p y) (sampleAddr s (plane s 0) s.sb (4 * p + s.fmt.groupOrder.iv) y)

/-- `body_PK2P(s, d)` (42_remapper.md R151). -/
def bodyPk2p (s d : Desc) (m : Memory) : Memory := forPairs s.height (s.width / 2) (unpackGroup s d) m

/-- `PK2P` as a primitive. -/
def primPk2p : Primitive := { admissible := admissiblePk2p, equalDepth := true, body := bodyPk2p }

/-- `PK2P` (42_remapper.md R151). -/
def execPk2p (s : State) : Host.Outcome State Fault Refusal := runPrimitive primPk2p s

/-- `admissible_P2PK(s, d)` (42_remapper.md R152). -/
def admissibleP2pk (s d : Desc) : Bool := s.rmOk && d.rmOk && d.fmt.isPacked && s.fmt == .f422p

/-- One group of `P2PK` (42_remapper.md R152). -/
def packGroup (s d : Desc) (y p : Nat) (m : Memory) : Memory :=
  Memory.moveSample
    (Memory.moveSample
      (Memory.moveSample
        (Memory.moveSample m s.sb (sampleAddr d (plane d 0) s.sb (4 * p + d.fmt.groupOrder.iy0) y)
          (sampleAddr s (plane s 0) s.sb (2 * p) y))
        s.sb (sampleAddr d (plane d 0) s.sb (4 * p + d.fmt.groupOrder.iy1) y)
        (sampleAddr s (plane s 0) s.sb (2 * p + 1) y))
      s.sb (sampleAddr d (plane d 0) s.sb (4 * p + d.fmt.groupOrder.iu) y) (sampleAddr s (plane s 1) s.sb p y))
    s.sb (sampleAddr d (plane d 0) s.sb (4 * p + d.fmt.groupOrder.iv) y) (sampleAddr s (plane s 2) s.sb p y)

/-- `body_P2PK(s, d)` (42_remapper.md R152). -/
def bodyP2pk (s d : Desc) (m : Memory) : Memory := forPairs s.height (s.width / 2) (packGroup s d) m

/-- `P2PK` as a primitive. -/
def primP2pk : Primitive := { admissible := admissibleP2pk, equalDepth := true, body := bodyP2pk }

/-- `P2PK` (42_remapper.md R152). -/
def execP2pk (s : State) : Host.Outcome State Fault Refusal := runPrimitive primP2pk s

/-! ### RESAMPLE -/

/-- `rowmap(j)`: the source chroma row of destination chroma row `j` (42_remapper.md R154, 90_conflicts.md C1). -/
def chromaRowMap (sf df : PixelFormat) (j : Nat) : Nat :=
  match sf, df with
  | .f422p, .f420p => j <<< 1
  | .f420p, .f422p => j >>> 1
  | _, _ => j

/-- `admissible_RESAMPLE(s, d)` (42_remapper.md R155). -/
def admissibleResample (s d : Desc) : Bool := s.rmOk && d.rmOk && s.fmt.isPlanar && d.fmt.isPlanar

/-- `body_RESAMPLE(s, d)` (42_remapper.md R155). -/
def bodyResample (s d : Desc) (m : Memory) : Memory :=
  copyPlane s (plane s 2) d (plane d 2) s.sb (chromaRowMap s.fmt d.fmt)
    (copyPlane s (plane s 1) d (plane d 1) s.sb (chromaRowMap s.fmt d.fmt)
      (copyPlane s (plane s 0) d (plane d 0) s.sb id m))

/-- `RESAMPLE` as a primitive. -/
def primResample : Primitive := { admissible := admissibleResample, equalDepth := true, body := bodyResample }

/-- `RESAMPLE` (42_remapper.md R155). -/
def execResample (s : State) : Host.Outcome State Fault Refusal := runPrimitive primResample s

/-! ### RECTCOPY -/

/-- `admissible_RECTCOPY(s, d)` (42_remapper.md R158). -/
def admissibleRectcopy (s d : Desc) : Bool := s.fmt == d.fmt && s.tiled == d.tiled

/-- `body_RECTCOPY(s, d)` (42_remapper.md R158). -/
def bodyRectcopy (s d : Desc) (m : Memory) : Memory :=
  iterate (planes s).length (fun i m0 =>
    iterate (storageRows s (plane s i)) (fun y m1 =>
      Memory.copyBytes m1 (rowAddr d (plane d i) y) (rowAddr s (plane s i) y) (rowBytes s (plane s i))) m0) m

/-- `RECTCOPY` as a primitive. -/
def primRectcopy : Primitive := { admissible := admissibleRectcopy, equalDepth := true, body := bodyRectcopy }

/-- `RECTCOPY` (42_remapper.md R158). -/
def execRectcopy (s : State) : Host.Outcome State Fault Refusal := runPrimitive primRectcopy s

end Sys2Proof.Machine
end

