-- ==== Sys2Proof/Machine/Orchestrator.lean ====
section
/-! DEFINITION. The conversion orchestrator: planning and `CONVERT` (43_orchestrator.md). -/

namespace Sys2Proof.Machine

/-- The primitives a step of a plan can run (43_orchestrator.md R171). -/
inductive Prim where
  | unpack10 | pack10 | narrow | widen | rescale16 | untile8 | tile8 | sp2p | p2sp | pk2p | p2pk | resample | rectcopy
  deriving DecidableEq, Repr

/-- The primitive of each name. -/
def Prim.primitive : Prim → Primitive
  | .unpack10 => primUnpack10
  | .pack10 => primPack10
  | .narrow => primNarrow
  | .widen => primWiden
  | .rescale16 => primRescale16
  | .untile8 => primUntile8
  | .tile8 => primTile8
  | .sp2p => primSp2p
  | .p2sp => primP2sp
  | .pk2p => primPk2p
  | .p2pk => primP2pk
  | .resample => primResample
  | .rectcopy => primRectcopy

/-- A planned step: stage, primitive, output descriptor; the descriptor's base is given when the step runs
(43_orchestrator.md R173, R175). -/
structure PlanStep where
  stage : Stage
  prim : Prim
  next : Desc
  deriving DecidableEq, Repr

/-- The planner's working state: the steps so far and the working descriptor `cur` (43_orchestrator.md R173). -/
structure Planner where
  steps : List PlanStep
  cur : Desc
  deriving DecidableEq, Repr

/-- An error of planning, with its stage (43_orchestrator.md R173). -/
abbrev PlanResult := Except (ErrCode × Stage) Planner

/-- The fixed inputs of planning: the requested descriptor and the two scratch capacities. -/
structure PlanGoal where
  dst : Desc
  cap0 : Nat
  cap1 : Nat
  deriving DecidableEq, Repr

/-- `cap0` for the steps of even index, `cap1` for the odd ones (43_orchestrator.md R174). -/
def Planner.capacity (p : Planner) (g : PlanGoal) : Nat := if p.steps.length % 2 = 0 then g.cap0 else g.cap1

/-- `add(stage, OP, layout(...))`: lays out the request against the capacity of the scratch buffer the step will write,
and appends the step (43_orchestrator.md R173, R174). -/
def Planner.addStep (p : Planner) (g : PlanGoal) (stage : Stage) (op : Prim) (r : Request) : PlanResult :=
  match layout { r with bufSize := p.capacity g } with
  | .error c => .error (c, stage)
  | .ok der =>
    .ok { steps := p.steps ++
            [{ stage := stage, prim := op,
               next := { toRequest := { r with bufSize := p.capacity g }, toDerived := der, base := 0 } }],
          cur := { toRequest := { r with bufSize := p.capacity g }, toDerived := der, base := 0 } }

/-- The request of `mk` for a raster intermediate: no stride or size request, no tile geometry (43_orchestrator.md
R173). -/
def rasterRequest (d : Desc) (fmt : PixelFormat) (nbit nlsb : Nat) : Request :=
  { width := d.width, height := d.height, fmt := fmt, nbit := nbit, nlsb := nlsb, tiled := false, tw := 0, th := 0,
    tsz := 0, reqStride := 0, reqIosize := 0, bufSize := 0 }

/-- `need`: some of stages 1 to 4 is needed (43_orchestrator.md R173). -/
def planNeed (s d : Desc) : Bool :=
  s.fmt != d.fmt || s.nbit != d.nbit || (s.nbit == 16 && s.eab != d.eab) || s.tiled != d.tiled

/-- Stage S1: untile or unpack (43_orchestrator.md R173, 90_conflicts.md C6). -/
def planS1 (g : PlanGoal) (p : Planner) : PlanResult :=
  if p.cur.nbit = 10 then p.addStep g .s1 .unpack10 (rasterRequest p.cur p.cur.fmt 16 10)
  else if p.cur.nbit = 8 ∧ p.cur.tiled then p.addStep g .s1 .untile8 (rasterRequest p.cur p.cur.fmt 8 0)
  else .ok p

/-- `tn`: the depth of the raster working representation (43_orchestrator.md R173). -/
def PlanGoal.workDepth (g : PlanGoal) : Nat := if g.dst.nbit = 8 then 8 else 16

/-- `tl`: its active bits (43_orchestrator.md R173). -/
def PlanGoal.workNlsb (g : PlanGoal) : Nat :=
  if g.dst.nbit = 8 then 0 else if g.dst.nbit = 10 then 10 else g.dst.nlsb

/-- `te`: its effective active bits (43_orchestrator.md R173). -/
def PlanGoal.workEab (g : PlanGoal) : Nat := if g.workNlsb = 0 then 16 else g.workNlsb

/-- Stage S2: bit-depth adjust; the active-bit test comes before the capacity check (43_orchestrator.md R173,
90_conflicts.md C14). -/
def planS2 (g : PlanGoal) (p : Planner) : PlanResult :=
  if p.cur.nbit = 16 ∧ g.workDepth = 8 then
    if p.cur.eab < 8 then .error (.unsup, .s2)
    else p.addStep g .s2 .narrow (rasterRequest p.cur p.cur.fmt 8 0)
  else if p.cur.nbit = 8 ∧ g.workDepth = 16 then
    if g.workEab < 8 then .error (.unsup, .s2)
    else p.addStep g .s2 .widen (rasterRequest p.cur p.cur.fmt 16 g.workNlsb)
  else if p.cur.nbit = 16 ∧ g.workDepth = 16 ∧ p.cur.eab ≠ g.workEab then
    p.addStep g .s2 .rescale16 (rasterRequest p.cur p.cur.fmt 16 g.workNlsb)
  else .ok p

/-- Stage S3a: de-interlace to the planar base (43_orchestrator.md R173). -/
def planS3a (g : PlanGoal) (p : Planner) : PlanResult :=
  if p.cur.fmt ≠ g.dst.fmt ∧ p.cur.fmt ≠ p.cur.fmt.base then
    p.addStep g .s3a (if p.cur.fmt.isSemiplanar then .sp2p else .pk2p)
      (rasterRequest p.cur p.cur.fmt.base p.cur.nbit p.cur.nlsb)
  else .ok p

/-- Stage S3b: chroma resampling between the planar bases (43_orchestrator.md R173). -/
def planS3b (g : PlanGoal) (p : Planner) : PlanResult :=
  if g.dst.fmt.base ≠ p.cur.fmt then
    p.addStep g .s3b .resample (rasterRequest p.cur g.dst.fmt.base p.cur.nbit p.cur.nlsb)
  else .ok p

/-- Stage S3c: re-interlace to the destination's variant (43_orchestrator.md R173). -/
def planS3c (g : PlanGoal) (p : Planner) : PlanResult :=
  if g.dst.fmt ≠ p.cur.fmt then
    p.addStep g .s3c (if g.dst.fmt.isSemiplanar then .p2sp else .p2pk)
      (rasterRequest p.cur g.dst.fmt p.cur.nbit p.cur.nlsb)
  else .ok p

/-- Stage S3: nothing if the working format is already the requested one, otherwise (a), (b), (c)
(43_orchestrator.md R173). -/
def planS3 (g : PlanGoal) (p : Planner) : PlanResult :=
  if p.cur.fmt ≠ g.dst.fmt then ((planS3a g p).bind (planS3b g)).bind (planS3c g) else .ok p

/-- The request of stage S4: the destination's depth, active bits and tiling, no stride or size request
(43_orchestrator.md R173). A raster `PACK10` keeps the destination's `TILE`, as R173's call of `mk` passes it, where R180
says 0 for a raster descriptor made by `mk`. DEDUCED (log 15). -/
def tiledRequest (cur d : Desc) (nbit : Nat) (tiled : Bool) : Request :=
  { width := cur.width, height := cur.height, fmt := d.fmt, nbit := nbit, nlsb := d.nlsb, tiled := tiled, tw := d.tw,
    th := d.th, tsz := d.tsz, reqStride := 0, reqIosize := 0, bufSize := 0 }

/-- Stage S4: re-tile or re-pack (43_orchestrator.md R173). -/
def planS4 (g : PlanGoal) (p : Planner) : PlanResult :=
  if g.dst.nbit = 10 then p.addStep g .s4 .pack10 (tiledRequest p.cur g.dst 10 g.dst.tiled)
  else if g.dst.nbit = 8 ∧ g.dst.tiled then p.addStep g .s4 .tile8 (tiledRequest p.cur g.dst 8 true)
  else .ok p

/-- Stage S5: buffer relayout into exactly the requested stride and size (43_orchestrator.md R173). -/
def planS5 (g : PlanGoal) (p : Planner) : PlanResult :=
  if p.cur.yStride ≠ g.dst.yStride ∨ p.cur.ioSize ≠ g.dst.ioSize then
    p.addStep g .s5 .rectcopy g.dst.toRequest
  else .ok p

/-- Stages S1 to S4 in order. -/
def planStages (g : PlanGoal) (p : Planner) : PlanResult :=
  (((planS1 g p).bind (planS2 g)).bind (planS3 g)).bind (planS4 g)

/-- `plan(s, d, cap0, cap1)` (43_orchestrator.md R173). -/
def plan (s : Desc) (g : PlanGoal) : PlanResult :=
  (if planNeed s g.dst then planStages g { steps := [], cur := s } else .ok { steps := [], cur := s }).bind (planS5 g)

/-- The base of the scratch buffer step `k` writes: scratch `k mod 2` (43_orchestrator.md R177). -/
def State.scratchBase (s : State) (k : Nat) : Nat := if k % 2 = 0 then s.scr0Base.toNat else s.scr1Base.toNat

/-- Phase 2: the steps in order, bodies only, from step index `k`; answers memory and the last descriptor
(43_orchestrator.md R175, R176). -/
def runSteps (st : State) (k : Nat) (cur : Desc) (steps : List PlanStep) (m : Memory) : Memory × Desc :=
  match steps with
  | [] => (m, cur)
  | x :: rest =>
    runSteps st (k + 1) { x.next with base := st.scratchBase k } rest
      (x.prim.primitive.body cur { x.next with base := st.scratchBase k } m)

/-- The regions a conversion of `n` steps uses (43_orchestrator.md R175). -/
def State.convertRegions (s : State) (n : Nat) : List Region :=
  if n = 0 then [] else if n = 1 then [s.bankS.region, s.scr0] else [s.bankS.region, s.scr0, s.scr1]

/-- The stage id of the last planned step, `none` for an empty plan (43_orchestrator.md R175 phase 3). -/
def lastStage (steps : List PlanStep) : Stage :=
  match steps.getLast? with
  | some x => x.stage
  | none => .none

/-- `RESBUF` after `n` steps: 0 for none, 1 if odd, 2 if even (43_orchestrator.md R175 phase 3). -/
def resultBuffer (n : Nat) : BitVec 2 := if n = 0 then 0#2 else if n % 2 = 1 then 1#2 else 2#2

/-- Phase 3: bank `W` and the three `CONVERT` fields of `STATUS` (43_orchestrator.md R175, R180). With no step, `W` is a
copy of every slot of bank `S`. `NLSB` is the last descriptor's, or the source's with no step, also where R180's last
sentence gives `D`'s. DEDUCED (log 14). `TILE` after a raster `PACK10`: log 15. -/
def State.convertResult (s : State) (steps : List PlanStep) (out : Memory × Desc) : State :=
  { s with
    mem := out.1
    bankW := if steps.length = 0 then s.bankS else Bank.ofDesc out.2
    status := { s.status with
      nsteps := BitVec.ofNat 3 steps.length
      stage := (lastStage steps).id
      resbuf := resultBuffer steps.length } }

/-- Phase 1 of `CONVERT`: the checks and the plan (43_orchestrator.md R175). -/
def convertPlan (s : State) : Except (ErrCode × Stage) (List PlanStep) :=
  if !(s.bankS.valid && s.bankD.valid) then .error (.nolayout, .none)
  else if s.bankS.desc.fmt.isMono != s.bankD.desc.fmt.isMono then .error (.unsup, .none)
  else if s.bankS.desc.width ≠ s.bankD.desc.width ∨ s.bankS.desc.height ≠ s.bankD.desc.height then .error (.shape, .none)
  else
    match plan s.bankS.desc { dst := s.bankD.desc, cap0 := s.scr0Cap.toNat, cap1 := s.scr1Cap.toNat } with
    | .error e => .error e
    | .ok p =>
      if (s.convertRegions p.steps.length).any (fun r => !r.inMemory) then .error (.alloc, .none)
      else if anyOverlap (s.convertRegions p.steps.length) then .error (.overlap, .none)
      else .ok p.steps

/-- `CONVERT` (43_orchestrator.md R175). With no step nothing is read, so nothing can lie outside memory. -/
def execConvert (s : State) : Host.Outcome State Fault Refusal :=
  match convertPlan s with
  | .error (c, g) => .next (s.raiseError c g)
  | .ok steps =>
    if steps.length = 0 ∨ s.bankS.desc.inMemory then
      .next (State.complete (s.convertResult steps (runSteps s 0 s.bankS.desc steps s.mem)))
    else .fault .addressOutsideMemory

end Sys2Proof.Machine
end

