-- ==== Sys2Proof/Machine/Dispatch.lean ====
section
/-! DEFINITION. One arm for each command. -/

namespace Sys2Proof.Machine

def exec (i : Instr) (s : State) : Host.Outcome State Fault Refusal :=
  match i with
  | .nop => Sys2Proof.Machine.execNop s
  | .layoutS => Sys2Proof.Machine.execLayoutS s
  | .layoutD => Sys2Proof.Machine.execLayoutD s
  | .copylayout => Sys2Proof.Machine.execCopylayout s
  | .unpack10 => Sys2Proof.Machine.execUnpack10 s
  | .pack10 => Sys2Proof.Machine.execPack10 s
  | .narrow => Sys2Proof.Machine.execNarrow s
  | .widen => Sys2Proof.Machine.execWiden s
  | .rescale16 => Sys2Proof.Machine.execRescale16 s
  | .untile8 => Sys2Proof.Machine.execUntile8 s
  | .tile8 => Sys2Proof.Machine.execTile8 s
  | .sp2p => Sys2Proof.Machine.execSp2p s
  | .p2sp => Sys2Proof.Machine.execP2sp s
  | .pk2p => Sys2Proof.Machine.execPk2p s
  | .p2pk => Sys2Proof.Machine.execP2pk s
  | .resample => Sys2Proof.Machine.execResample s
  | .rectcopy => Sys2Proof.Machine.execRectcopy s
  | .convert => Sys2Proof.Machine.execConvert s

end Sys2Proof.Machine
end

