-- ==== Sys2Proof/Machine/Flags.lean ====
section
/-! DEFINITION. The status words and the interrupt line (10_state.md R24 to R26, 60_exceptions.md R202). The block has
no arithmetic flags (10_state.md R43). -/

namespace Sys2Proof.Machine

/-- `STATUS` as the word a read returns (10_state.md R24). -/
def Status.word (t : Status) : Word :=
  0#13 ++ t.nsteps ++ 0#2 ++ t.resbuf ++ t.stage ++ t.errcode ++ 0#1 ++ BitVec.ofBool t.err ++ BitVec.ofBool t.done ++
    BitVec.ofBool t.busy

/-- `ERRINFO` as the word a read returns (10_state.md R25). -/
def ErrInfo.word (e : ErrInfo) : Word := 0#20 ++ e.stage ++ e.opc

/-- `IRQ_EN` as the word a read returns (10_state.md R26). -/
def IrqEn.word (e : IrqEn) : Word := 0#30 ++ BitVec.ofBool e.errEn ++ BitVec.ofBool e.doneEn

/-- The value a write to `IRQ_EN` stores (10_state.md R26). -/
def IrqEn.ofWord (v : Word) : IrqEn := { doneEn := v.getLsbD 0, errEn := v.getLsbD 1 }

/-- The interrupt output, a level: `(DONE_EN and DONE) or (ERR_EN and ERR)` (60_exceptions.md R202). -/
def State.irq (s : State) : Bool :=
  (s.irqEn.doneEn && s.status.done) || (s.irqEn.errEn && s.status.err)

end Sys2Proof.Machine
end

