-- ==== Sys2Proof/WellFormed.lean ====
section
/-! DEFINITION. Well-formedness of what the machine is given: commands (which have no operand to check) and the
transactions of the register port. -/

namespace Sys2Proof

/-- A command has no operand field (30_encoding.md R80, R82), so each of the 18 is well formed. -/
def Instr.wf (_ : Instr) : Bool := true

/-- The offset of a register transaction is a multiple of 4 (10_state.md R20). -/
def offsetAligned (off : Nat) : Bool := off % 4 == 0

/-- The offset of a register transaction lies in the map (10_state.md R20). -/
def offsetInMap (off : Nat) : Bool := Nat.ble off 0xFC

/-- A register transaction is 32 bits wide (10_state.md R20). -/
def widthIs32 (width : Nat) : Bool := width == 32

/-- A register transaction is one the spec defines (10_state.md R20, 93 U14). -/
def portAccessOk (off width : Nat) : Bool := offsetAligned off && offsetInMap off && widthIs32 width

/-- A transaction is one the spec defines; memory accesses carry a 32-bit address and a byte, so all of them are. -/
def Machine.Input.wf : Machine.Input → Bool
  | .regRead off width => portAccessOk off width
  | .regWrite off width _ => portAccessOk off width
  | .memRead _ => true
  | .memWrite _ _ => true
  | .reset => true

end Sys2Proof
end

