-- ==== Sys2Proof/Machine/Port.lean ====
section
/-! DEFINITION. The register port, the host's side of memory and the reset input: the register map
(10_state.md R20 to R42), host memory accesses (20_memory.md R73, 70_reset_and_hazards.md R217) and reset (R210, R211). -/

namespace Sys2Proof.Machine

/-! ### The register map -/

/-- The slot at index `k` of a bank, byte offset `4*k` (10_state.md R30). -/
def BankSlot.ofIndex (k : Nat) : BankSlot :=
  match k with
  | 0 => .width
  | 1 => .height
  | 2 => .format
  | 3 => .tile
  | 4 => .reqStride
  | 5 => .reqIosize
  | 6 => .yStride
  | 7 => .uvStride
  | 8 => .ySize
  | 9 => .uvSize
  | 10 => .ioSize
  | 11 => .bufSize
  | 12 => .base
  | 13 => .valid
  | _ => .reserved

/-- The register at slot `k`, byte offset `4*k`, of the 64 slots (10_state.md R21). -/
def Reg.ofSlot (k : Nat) : Reg :=
  match k with
  | 0 => .id
  | 1 => .cmd
  | 2 => .status
  | 3 => .errinfo
  | 4 => .irqEn
  | 8 => .scr0Base
  | 9 => .scr0Cap
  | 10 => .scr1Base
  | 11 => .scr1Cap
  | _ =>
    if k < 16 then .reserved
    else if k < 32 then .bank .s (BankSlot.ofIndex (k - 16))
    else if k < 48 then .bank .d (BankSlot.ofIndex (k - 32))
    else .bank .w (BankSlot.ofIndex (k - 48))

/-- The register of a transaction, none for one outside the spec (10_state.md R20, 93 U14). -/
def Reg.ofAccess (off width : Nat) : Option Reg := if portAccessOk off width then some (Reg.ofSlot (off / 4)) else none

/-! ### Reading -/

/-- `FORMAT` as a word (10_state.md R33). -/
def Bank.formatWord (b : Bank) : Word :=
  0#11 ++ b.nlsb ++ 0#3 ++ b.nbit ++ 0#3 ++ BitVec.ofBool b.tiled ++ b.fmt

/-- `TILE` as a word (10_state.md R34). -/
def Bank.tileWord (b : Bank) : Word := b.tsz ++ b.th ++ b.tw

/-- The value a read of a bank slot returns (10_state.md R30 to R40). -/
def Bank.readSlot (b : Bank) : BankSlot → Word
  | .width => 0#16 ++ b.width
  | .height => 0#16 ++ b.height
  | .format => b.formatWord
  | .tile => b.tileWord
  | .reqStride => b.reqStride
  | .reqIosize => b.reqIosize
  | .yStride => b.yStride
  | .uvStride => b.uvStride
  | .ySize => b.ySize
  | .uvSize => b.uvSize
  | .ioSize => b.ioSize
  | .bufSize => b.bufSize
  | .base => b.base
  | .valid => 0#31 ++ BitVec.ofBool b.valid
  | .reserved => 0#32

/-- The bank an id names. -/
def State.bank (s : State) : BankId → Bank
  | .s => s.bankS
  | .d => s.bankD
  | .w => s.bankW

/-- `reg[NAME]`: the value a read returns; `ID` is hard-wired and reserved slots read 0 (10_state.md R20 to R30). -/
def State.regValue (s : State) : Reg → Word
  | .id => Config.idValue
  | .cmd => s.cmd
  | .status => s.status.word
  | .errinfo => s.errinfo.word
  | .irqEn => s.irqEn.word
  | .scr0Base => s.scr0Base
  | .scr0Cap => s.scr0Cap
  | .scr1Base => s.scr1Base
  | .scr1Cap => s.scr1Cap
  | .bank b f => (s.bank b).readSlot f
  | .reserved => 0#32

/-- A `STATUS` read that returns `BUSY = 0` gives the engine's regions back to the host (20_memory.md R73 (b), R75,
70_reset_and_hazards.md R217); no other read changes anything. -/
def State.acquireOnRead (s : State) (r : Reg) : State :=
  if r = .status ∧ s.status.busy = false then { s with owned := [] } else s

/-- `RegRead`: the value goes to the host, here to `regData` (10_state.md R20; log 4). -/
def State.readReg (s : State) (r : Reg) : State := { s.acquireOnRead r with regData := s.regValue r }

/-! ### Writing -/

/-- The bank after a write to one of its slots: request fields and `BUF_SIZE` clear `VALID`, `BASE` does not, the
read-only and reserved slots ignore the write (10_state.md R30 to R42). -/
def Bank.writeSlot (b : Bank) (f : BankSlot) (v : Word) : Bank :=
  match f with
  | .width => { b with width := v.extractLsb' 0 16, valid := false }
  | .height => { b with height := v.extractLsb' 0 16, valid := false }
  | .format =>
    { b with
      fmt := v.extractLsb' 0 4
      tiled := v.getLsbD 4
      nbit := v.extractLsb' 8 5
      nlsb := v.extractLsb' 16 5
      valid := false }
  | .tile => { b with tw := v.extractLsb' 0 8, th := v.extractLsb' 8 8, tsz := v.extractLsb' 16 16, valid := false }
  | .reqStride => { b with reqStride := v, valid := false }
  | .reqIosize => { b with reqIosize := v, valid := false }
  | .bufSize => { b with bufSize := v, valid := false }
  | .base => { b with base := v }
  | .yStride | .uvStride | .ySize | .uvSize | .ioSize | .valid | .reserved => b

/-- A register write made while `BUSY = 0` (10_state.md R20 to R42); bank `W` is read-only to the host (R41). -/
def State.writeIdle (s : State) (r : Reg) (v : Word) : State :=
  match r with
  | .cmd => s.writeCmd v
  | .status => s.writeStatus v
  | .irqEn => { s with irqEn := IrqEn.ofWord v }
  | .scr0Base => { s with scr0Base := v }
  | .scr0Cap => { s with scr0Cap := v }
  | .scr1Base => { s with scr1Base := v }
  | .scr1Cap => { s with scr1Cap := v }
  | .bank .s f => { s with bankS := s.bankS.writeSlot f v }
  | .bank .d f => { s with bankD := s.bankD.writeSlot f v }
  | .bank .w _ => s
  | .id | .errinfo | .reserved => s

/-- `RegWrite`: while `BUSY = 1` every write but one to `IRQ_EN` is ignored (10_state.md R28). -/
def State.writeReg (s : State) (r : Reg) (v : Word) : State :=
  if s.status.busy then
    if r = .irqEn then { s with irqEn := IrqEn.ofWord v } else s
  else s.writeIdle r v

/-! ### The host's side of memory -/

/-- The byte lies in a region that belongs to the engine (70_reset_and_hazards.md R217; log 6). -/
def State.engineOwns (s : State) (a : Nat) : Bool := s.owned.any fun r => r.contains a

/-! ### Reset -/

/-- Every byte of a region at its free value `Config.abandonedByte k` (70_reset_and_hazards.md R211; log 7). -/
def abandonRegion (k : Nat) (m : Memory) (r : Region) : Memory :=
  iterate r.size (fun i m1 => Memory.write m1 (r.base + i) (Config.abandonedByte k (r.base + i))) m

/-- The regions the running command is allowed to write: none when no command runs or its word is illegal
(70_reset_and_hazards.md R211, 30_encoding.md R84). -/
def State.abandonedRegions (s : State) : List Region :=
  if s.status.busy then
    match decode s.cmd with
    | .ok i => s.writableRegions i
    | .error _ => []
  else []

/-- `reset`: every register at its reset value, memory untouched, except that a running command is abandoned and the
bytes it was allowed to write become free values (10_state.md R50, R51, 70_reset_and_hazards.md R210, R211). The model's
own fields other than `wait` are no register and stay (logs 2, 3, 4, 7). -/
def State.resetBlock (s : State) : State :=
  { State.reset with
    mem := s.abandonedRegions.foldl (abandonRegion s.epoch) s.mem
    tCmds := s.tCmds
    inputs := s.inputs
    regData := s.regData
    memData := s.memData
    epoch := if s.status.busy then s.epoch + 1 else s.epoch }

/-! ### Serving one transaction -/

/-- The interrupt seen by the host gives the engine's regions back to it (20_memory.md R73 (b); log 6). -/
def State.acquireOnIrq (s : State) : State := if s.irq then { s with owned := [] } else s

/-- One transaction of the host or the platform (10_state.md R20, 20_memory.md R73). -/
def State.serve (s : State) (i : Input) : Host.Outcome State Fault Refusal :=
  match i with
  | .regRead off width =>
    match Reg.ofAccess off width with
    | some r => .next (s.readReg r)
    | none => .refused .registerAccess
  | .regWrite off width v =>
    match Reg.ofAccess off width with
    | some r => .next (s.writeReg r v)
    | none => .refused .registerAccess
  | .memRead a =>
    if s.engineOwns a.toNat then .refused .hostRace else .next { s with memData := Memory.read s.mem a.toNat }
  | .memWrite a b =>
    if s.engineOwns a.toNat then .refused .hostRace else .next { s with mem := Memory.write s.mem a.toNat b }
  | .reset => .next s.resetBlock

/-- One step of the time a running command takes (70_reset_and_hazards.md R222; log 3). -/
def State.tick (s : State) : State := { s with wait := s.wait - 1 }

/-- The next transaction is served; with none to come the block does nothing but let a running command's time pass
(70_reset_and_hazards.md R210, R222). -/
def serveNext (s : State) : Host.Outcome State Fault Refusal :=
  match s.inputs with
  | [] => .next s.tick
  | i :: rest => State.serve { s.tick.acquireOnIrq with inputs := rest } i

end Sys2Proof.Machine
end

