-- ==== Sys2Proof/Machine/Step.lean ====
section
/-! DEFINITION. One step of the block: the running command when its time is over, otherwise the next transaction. -/

namespace Sys2Proof.Machine

/-- The running command: the word in `CMD` is decoded and executed; an illegal word completes with `ILLEGAL`
(10_state.md R45, 30_encoding.md R84). -/
def runCommand (s : State) : Host.Outcome State Fault Refusal :=
  match decode s.cmd with
  | .ok i => exec i s
  | .error _ => .next (s.raiseError .illegal .none)

/-- One step (00_scope.md R7, 70_reset_and_hazards.md R222; logs 2, 3). -/
def step (s : State) : Host.Outcome State Fault Refusal :=
  if s.status.busy ∧ s.wait = 0 then runCommand s else serveNext s

/-- `s` with the command word placed as an accepted `CMD` write places it, its time over (60_exceptions.md R200;
logs 1, 3): the block fetches no instruction, so this is what makes the next step run the word. -/
def State.withFetchWord (s : State) (nbits w : Nat) : State :=
  { s with
    cmd := tableWord nbits w
    status := { s.status with busy := true, done := false, stage := 0#4, resbuf := 0#2, nsteps := 0#3 }
    wait := 0 }

end Sys2Proof.Machine
end

