-- ==== Sys2Proof/Safety.lean ====
section
/-! DEFINITION. What counts as a sound state and a safe run, and the closed forms of the spec, in the terms the
statements use. -/

namespace Sys2Proof.Machine

/-! ### Sound states -/

/-- A bank with `VALID = 1` holds the derived fields a successful layout of its present request fields and `BUF_SIZE`
gives (10_state.md R40). -/
def Bank.sound (b : Bank) : Bool :=
  !b.valid ||
    match layout b.request with
    | .ok r => r == b.derived
    | .error _ => false

/-- At most one of `BUSY`, `DONE`, `ERR` is 1 (10_state.md R24). -/
def Status.exclusive (t : Status) : Bool := !(t.busy && t.done) && !(t.busy && t.err) && !(t.done && t.err)

/-- `ERRCODE` is 0 and `ERRINFO` is 0 while `ERR = 0`; while `ERR = 1` the code is one of 1 to 7 and `ERRINFO` holds the
opcode byte of `CMD` and the stage of `STATUS` (10_state.md R24, R25, 60_exceptions.md R190). -/
def State.errorRecordOk (s : State) : Bool :=
  if s.status.err then
    Nat.ble 1 s.status.errcode.toNat && Nat.ble s.status.errcode.toNat 7 && s.errinfo.stage == s.status.stage &&
      s.errinfo.opc == opcField s.cmd
  else s.status.errcode == 0#4 && s.errinfo == { opc := 0#8, stage := 0#4 }

/-- The `CONVERT` fields of `STATUS` hold only values that occur: stage ids 0 to 7, `RESBUF` not 3, all three 0 while a
command runs, and `RESBUF`, `NSTEPS` 0 after an error (10_state.md R24, 43_orchestrator.md R171, 60_exceptions.md R198). -/
def Status.convertFieldsOk (t : Status) : Bool :=
  Nat.ble t.stage.toNat 7 && t.resbuf != 3#2 && (!t.busy || t.stage == 0#4) &&
    (!(t.busy || t.err) || (t.resbuf == 0#2 && t.nsteps == 0#3))

/-- The status registers are as some run from reset can leave them. -/
abbrev State.StatusSound (s : State) : Prop :=
  s.status.exclusive = true ∧ s.errorRecordOk = true ∧ s.status.convertFieldsOk = true

/-- Banks `S` and `D` are sound. -/
abbrev State.OperandsSound (s : State) : Prop := s.bankS.sound = true ∧ s.bankD.sound = true

/-- The invariant of the block. -/
abbrev State.Inv (s : State) : Prop :=
  Memory.wf s.mem = true ∧ s.OperandsSound ∧ s.bankW.sound = true ∧ s.StatusSound

/-! ### When a command runs to its end -/

/-- The command each primitive of a plan is. -/
def Prim.instr : Prim → Instr
  | .unpack10 => .unpack10
  | .pack10 => .pack10
  | .narrow => .narrow
  | .widen => .widen
  | .rescale16 => .rescale16
  | .untile8 => .untile8
  | .tile8 => .tile8
  | .sp2p => .sp2p
  | .p2sp => .p2sp
  | .pk2p => .pk2p
  | .p2pk => .p2pk
  | .resample => .resample
  | .rectcopy => .rectcopy

/-- An 8-bit or 16-bit raster frame, the samples the remapper moves (42_remapper.md R140). -/
abbrev Desc.ByteRaster (d : Desc) : Prop := (d.nbit = 8 ∨ d.nbit = 16) ∧ d.tiled = false

/-- What each primitive asks of its two frames, format by format (41_codec.md R124 to R133, 42_remapper.md R140 to
R158). -/
def Prim.Admits (p : Prim) (s d : Desc) : Prop :=
  match p with
  | .unpack10 => s.nbit = 10 ∧ d.nbit = 16 ∧ d.nlsb = 10 ∧ s.fmt = d.fmt
  | .pack10 => s.nbit = 16 ∧ s.nlsb = 10 ∧ d.nbit = 10 ∧ s.fmt = d.fmt
  | .narrow => s.nbit = 16 ∧ d.nbit = 8 ∧ d.tiled = false ∧ s.fmt = d.fmt ∧ (s.nlsb = 0 ∨ 8 ≤ s.nlsb)
  | .widen => s.nbit = 8 ∧ s.tiled = false ∧ d.nbit = 16 ∧ s.fmt = d.fmt ∧ (d.nlsb = 0 ∨ 8 ≤ d.nlsb)
  | .rescale16 => s.nbit = 16 ∧ d.nbit = 16 ∧ s.fmt = d.fmt
  | .untile8 => s.nbit = 8 ∧ s.tiled = true ∧ d.nbit = 8 ∧ d.tiled = false ∧ s.fmt = d.fmt
  | .tile8 => s.nbit = 8 ∧ s.tiled = false ∧ d.nbit = 8 ∧ d.tiled = true ∧ s.fmt = d.fmt
  | .sp2p => s.ByteRaster ∧ d.ByteRaster ∧
      ((s.fmt = .f420sp ∨ s.fmt = .f420spa) ∧ d.fmt = .f420p ∨ (s.fmt = .f422sp ∨ s.fmt = .f422spa) ∧ d.fmt = .f422p)
  | .p2sp => s.ByteRaster ∧ d.ByteRaster ∧
      ((d.fmt = .f420sp ∨ d.fmt = .f420spa) ∧ s.fmt = .f420p ∨ (d.fmt = .f422sp ∨ d.fmt = .f422spa) ∧ s.fmt = .f422p)
  | .pk2p => s.ByteRaster ∧ d.ByteRaster ∧ (s.fmt = .fuyvy ∨ s.fmt = .fyuyv) ∧ d.fmt = .f422p
  | .p2pk => s.ByteRaster ∧ d.ByteRaster ∧ (d.fmt = .fuyvy ∨ d.fmt = .fyuyv) ∧ s.fmt = .f422p
  | .resample => s.ByteRaster ∧ d.ByteRaster ∧ (s.fmt = .f420p ∨ s.fmt = .f422p) ∧ (d.fmt = .f420p ∨ d.fmt = .f422p)
  | .rectcopy => s.fmt = d.fmt ∧ s.tiled = d.tiled

/-- The conditions every primitive needs, whatever its own (41_codec.md R120, R121): memory in canonical form, both banks
laid out and sound, equal dimensions, both frames inside memory, and frames that do not overlap. -/
abbrev State.FramesReady (s : State) : Prop :=
  Memory.wf s.mem = true ∧ s.OperandsSound ∧ s.bankS.valid = true ∧ s.bankD.valid = true ∧
    s.bankS.desc.width = s.bankD.desc.width ∧ s.bankS.desc.height = s.bankD.desc.height ∧
    s.bankS.desc.base + s.bankS.desc.ioSize ≤ 4294967296 ∧ s.bankD.desc.base + s.bankD.desc.ioSize ≤ 4294967296 ∧
    (s.bankS.desc.base + s.bankS.desc.ioSize ≤ s.bankD.desc.base ∨
      s.bankD.desc.base + s.bankD.desc.ioSize ≤ s.bankS.desc.base)

/-- The state a completed primitive leaves: `s` with memory `m`, `BUSY = 0`, `DONE = 1`, and nothing else changed
(41_codec.md R120, 60_exceptions.md R201). -/
abbrev State.doneWith (s : State) (m : Memory) : State :=
  { s with mem := m, status := { s.status with busy := false, done := true } }

/-- The state error entry leaves (60_exceptions.md R198). -/
abbrev State.failedWith (s : State) (code stage : BitVec 4) : State :=
  { s with
    status := { s.status with busy := false, done := false, err := true, errcode := code, stage := stage }
    errinfo := { opc := s.cmd.extractLsb' 0 8, stage := stage } }

/-- The bits of a register the host's write stores; none for the registers whose write does something else or nothing
(10_state.md R21, R26, R27, R30 to R39). -/
def Reg.writeMask : Reg → Option Word
  | .irqEn => some 0x00000003#32
  | .scr0Base | .scr0Cap | .scr1Base | .scr1Cap => some 0xFFFFFFFF#32
  | .bank .s f | .bank .d f =>
    match f with
    | .width | .height => some 0x0000FFFF#32
    | .format => some 0x001F1F1F#32
    | .tile | .reqStride | .reqIosize | .bufSize | .base => some 0xFFFFFFFF#32
    | .yStride | .uvStride | .ySize | .uvSize | .ioSize | .valid | .reserved => none
  | .id | .cmd | .status | .errinfo | .bank .w _ | .reserved => none

/-- The 16 slots of a bank at their offsets (10_state.md R30). -/
def bankMap (a : Nat) (b : BankId) : List (Nat × Reg) :=
  [(a, .bank b .width), (a + 0x04, .bank b .height), (a + 0x08, .bank b .format), (a + 0x0C, .bank b .tile),
    (a + 0x10, .bank b .reqStride), (a + 0x14, .bank b .reqIosize), (a + 0x18, .bank b .yStride),
    (a + 0x1C, .bank b .uvStride), (a + 0x20, .bank b .ySize), (a + 0x24, .bank b .uvSize), (a + 0x28, .bank b .ioSize),
    (a + 0x2C, .bank b .bufSize), (a + 0x30, .bank b .base), (a + 0x34, .bank b .valid), (a + 0x38, .bank b .reserved),
    (a + 0x3C, .bank b .reserved)]

/-- The register map, all 64 slots (10_state.md R21). -/
def registerMap : List (Nat × Reg) :=
  [(0x000, .id), (0x004, .cmd), (0x008, .status), (0x00C, .errinfo), (0x010, .irqEn), (0x014, .reserved),
    (0x018, .reserved), (0x01C, .reserved), (0x020, .scr0Base), (0x024, .scr0Cap), (0x028, .scr1Base),
    (0x02C, .scr1Cap), (0x030, .reserved), (0x034, .reserved), (0x038, .reserved), (0x03C, .reserved)] ++
    bankMap 0x040 .s ++ bankMap 0x080 .d ++ bankMap 0x0C0 .w

/-! ### Bytes and samples of a frame -/

/-- Sample `(x, y)` of plane `i` is a sample of the frame (20_memory.md R67). -/
abbrev Desc.hasSample (d : Desc) (i x y : Nat) : Prop :=
  i < (planes d).length ∧ x < (plane d i).ws ∧ y < (plane d i).rows

/-- Address `a` is one of the natural bytes of a storage row of the frame (42_remapper.md R157): the bytes the
primitives write (70_reset_and_hazards.md R219). -/
def Desc.naturalByte (d : Desc) (a : Nat) : Prop :=
  ∃ i y k, i < (planes d).length ∧ y < storageRows d (plane d i) ∧ k < rowBytes d (plane d i) ∧
    a = rowAddr d (plane d i) y + k

/-- Every byte of memory but the natural bytes of the frame reads as before (70_reset_and_hazards.md R219). -/
def keepsOutside (d : Desc) (m m' : Memory) : Prop := ∀ a, ¬d.naturalByte a → Memory.read m' a = Memory.read m a

/-- Bit `j` of the bit string that starts at address `ra`: bit `j mod 8` of `M[ra + j div 8]` (20_memory.md R69). -/
def rowBit (m : Memory) (ra j : Nat) : Nat := ((Memory.read m (ra + j / 8)).toNat >>> (j % 8)) % 2

/-- The closed form of sample `x` of a compact 10-bit row: `sum over k in 0..9 of bit(10*x + k) * 2^k`
(20_memory.md R69). -/
def compactSample (m : Memory) (ra x : Nat) : Nat :=
  iterate 10 (fun k acc => acc + rowBit m ra (10 * x + k) * 2 ^ k) 0

/-- Sample `(x, y)` of a compact 10-bit tiled plane (20_memory.md R71). -/
def tiledSample10 (m : Memory) (d : Desc) (p : Plane) (x y : Nat) : Nat :=
  (Memory.readLE m (tileWordAddr10 d p x y) 4 / 2 ^ (10 * (x % 3))) % 1024

/-- Stages 1 to 4 of a conversion from `s` to `d` with their primitives (43_orchestrator.md R171, R173), from the two
descriptors alone: none if format, depth, active bits and tiling agree. -/
def stagesOneToFour (s d : Desc) : List (Stage × Prim) :=
  let depth := if s.nbit = 10 then 16 else s.nbit
  let active := if s.nbit = 10 then 10 else if s.nlsb = 0 then 16 else s.nlsb
  let wanted := if d.nbit = 10 then 10 else if d.nlsb = 0 then 16 else d.nlsb
  if s.fmt = d.fmt ∧ s.nbit = d.nbit ∧ (s.nbit = 16 → s.eab = d.eab) ∧ s.tiled = d.tiled then []
  else
    (if s.nbit = 10 then [(.s1, .unpack10)] else if s.nbit = 8 ∧ s.tiled = true then [(.s1, .untile8)] else []) ++
    (if d.nbit = 8 then if depth = 16 then [(.s2, .narrow)] else []
      else if depth = 8 then [(.s2, .widen)]
      else if depth = 16 ∧ active ≠ wanted then [(.s2, .rescale16)] else []) ++
    (if s.fmt = d.fmt then []
      else
        (if s.fmt.isSemiplanar then [(.s3a, .sp2p)] else if s.fmt.isPacked then [(.s3a, .pk2p)] else []) ++
        (if s.fmt.base = d.fmt.base then [] else [(.s3b, .resample)]) ++
        (if d.fmt.isSemiplanar then [(.s3c, .p2sp)] else if d.fmt.isPacked then [(.s3c, .p2pk)] else [])) ++
    (if d.nbit = 10 then [(.s4, .pack10)] else if d.nbit = 8 ∧ d.tiled = true then [(.s4, .tile8)] else [])

/-- The stage ids of a plan, in order (43_orchestrator.md R171). -/
def stageIds (steps : List PlanStep) : List Nat := steps.map fun x => x.stage.id.toNat

end Sys2Proof.Machine
end

