-- ==== Sys2Proof/Certificates/Slice0/Obligations.lean ====
section
/-! DEFINITION. The statements about the block, each a Prop to be proved. -/

open Sys2Proof Sys2Proof.Machine

/-! ### The command word -/

/-- 30_encoding.md R81: the 18 legal command words and the command each is. -/
def Obligations.DecodeAcceptsExactlyTheTable : Prop :=
  ∀ (w : Word) (i : Instr), decode w = .ok i ↔
    (w, i) ∈ [(0x00000000#32, Instr.nop), (0x00000001#32, .layoutS), (0x00000002#32, .layoutD),
      (0x00000003#32, .copylayout), (0x00000010#32, .unpack10), (0x00000011#32, .pack10), (0x00000012#32, .narrow),
      (0x00000013#32, .widen), (0x00000014#32, .rescale16), (0x00000020#32, .untile8), (0x00000021#32, .tile8),
      (0x00000022#32, .sp2p), (0x00000023#32, .p2sp), (0x00000024#32, .pk2p), (0x00000025#32, .p2pk),
      (0x00000026#32, .resample), (0x00000027#32, .rectcopy), (0x00000030#32, .convert)]

/-- Decode and encode agree: every well-formed command's word decodes to it, and no other word does. -/
def Obligations.DecodeEncodeAgree : Prop :=
  ∀ i : Instr, i.wf = true → decode (encode i) = .ok i ∧ ∀ w : Word, decode w = .ok i → w = encode i

/-- A few words written out from 30_encoding.md R81, one of each family. -/
def Obligations.SpecWordsDecode : Prop :=
  decode 0x00000001#32 = .ok .layoutS ∧ decode 0x00000011#32 = .ok .pack10 ∧ decode 0x00000026#32 = .ok .resample ∧
    decode 0x00000030#32 = .ok .convert ∧ decode 0x00000100#32 = .error .reservedBits ∧
    decode 0x00000004#32 = .error .unlistedOpcode

/-- 30_encoding.md R84: an illegal word completes with `ILLEGAL`, and nothing else changes. -/
def Obligations.IllegalCommandCompletes : Prop :=
  ∀ s : State, s.status.busy = true → s.wait = 0 → (∀ i : Instr, s.cmd ≠ encode i) →
    step s = .next (s.failedWith 6#4 0#4)

/-! ### Steps -/

/-- A step runs the command whose word is in `CMD`; so does the step after `withFetchWord`. -/
def Obligations.StepRunsDecodedCommand : Prop :=
  (∀ (s : State) (i : Instr), s.status.busy = true → s.wait = 0 → decode s.cmd = .ok i → i.wf = true →
    step s = exec i s) ∧
  ∀ (s : State) (nbits w : Nat) (i : Instr), decodeTableWord nbits w = some i →
    step (s.withFetchWord nbits w) = exec i (s.withFetchWord nbits w)

/-- A running command completes, after its `T_CMD` (here `wait` steps, log 3), with exactly one of `DONE` and `ERR`
(60_exceptions.md R201, 70_reset_and_hazards.md R222). -/
def Obligations.AcceptedCommandCompletes : Prop :=
  ∀ s : State, s.Inv → s.status.busy = true → s.inputs = [] →
    ∃ t : State, Host.Core.run core (s.wait + 1) s = .next t ∧ t.status.busy = false ∧
      ((t.status.done = true ∧ t.status.err = false) ∨ (t.status.done = false ∧ t.status.err = true))

/-! ### The register port -/

/-- 60_exceptions.md R200: a `CMD` write is accepted when `BUSY = 0` and `ERR = 0`, and otherwise dropped. The model's
reading, not the rule's words: the regions that pass to the engine with the command (`regions`), that the interrupt line
gives the earlier ones back (`held`; both log 6), and `wait`, `tCmds` (log 3). -/
def Obligations.CommandAcceptance : Prop :=
  ∀ (s : State) (w : Word) (rest : List Input) (held : List Region), s.inputs = .regWrite 0x004 32 w :: rest →
    held = (if s.irq = true then [] else s.owned) →
    (s.status.busy = false → s.status.err = false →
      ∃ regions : List Region,
        step s = .next { s with
          cmd := w
          status := { s.status with busy := true, done := false, stage := 0#4, resbuf := 0#2, nsteps := 0#3 }
          owned := regions ++ held
          wait := s.tCmds.headD 0
          tCmds := s.tCmds.tail
          inputs := rest } ∧
        (s.bankS.valid = true → s.bankD.valid = true →
          (∀ p : Prim, decode w = .ok p.instr → regions = [s.bankS.region, s.bankD.region]) ∧
          (decode w = .ok .convert → regions = [s.bankS.region, s.scr0, s.scr1])) ∧
        (¬(s.bankS.valid = true ∧ s.bankD.valid = true) → regions = []) ∧
        (∀ i ∈ [Instr.nop, .layoutS, .layoutD, .copylayout], decode w = .ok i → regions = []) ∧
        ∀ e : Reject, decode w = .error e → regions = []) ∧
    ((s.status.busy = true ∧ s.wait ≠ 0) ∨ (s.status.busy = false ∧ s.status.err = true) →
      step s = .next { s with owned := held, wait := s.wait - 1, inputs := rest })

/-- 10_state.md R28: while `BUSY = 1` every register write but one to `IRQ_EN` is ignored, and reads are served. What
becomes of `owned` and `wait` is the model's reading (logs 6, 3). -/
def Obligations.BusyWritesDropped : Prop :=
  ∀ (s : State) (off : Nat) (r : Reg) (v : Word) (rest : List Input) (held : List Region), s.status.busy = true →
    s.wait ≠ 0 → (off, r) ∈ registerMap → held = (if s.irq = true then [] else s.owned) →
    (s.inputs = .regWrite off 32 v :: rest → r ≠ .irqEn →
      step s = .next { s with owned := held, wait := s.wait - 1, inputs := rest }) ∧
    (s.inputs = .regWrite off 32 v :: rest → r = .irqEn →
      step s = .next { s with
        irqEn := { doneEn := v.getLsbD 0, errEn := v.getLsbD 1 }
        owned := held
        wait := s.wait - 1
        inputs := rest }) ∧
    (s.inputs = .regRead off 32 :: rest →
      step s = .next { s with regData := s.regValue r, owned := held, wait := s.wait - 1, inputs := rest })

/-- The registers as words (10_state.md R20 to R41): a write made while `BUSY = 0` to a register the host may write stores
the bits the register has; one to a read-only or reserved one changes nothing; no write changes another register (but what
`CMD` does to `STATUS`, `STATUS` to `ERRINFO`, a bank's slot to its `VALID`) or a byte of memory; and each word has its
fields where the rules put them. -/
def Obligations.RegisterWriteReadback : Prop :=
  (∀ (s : State) (r : Reg) (v : Word), s.status.busy = false →
    (∀ m : Word, r.writeMask = some m → (s.writeReg r v).regValue r = v &&& m) ∧
    (r.writeMask = none → r ≠ .cmd → r ≠ .status → s.writeReg r v = s) ∧
    (∀ r' : Reg, r' ≠ r → ¬(r = .cmd ∧ r' = .status) → ¬(r = .status ∧ r' = .errinfo) →
      (∀ b f, ¬(r = .bank b f ∧ r' = .bank b .valid)) → (s.writeReg r v).regValue r' = s.regValue r') ∧
    (s.writeReg r v).mem = s.mem) ∧
  (∀ s : State,
    (s.regValue .status).toNat = s.status.busy.toNat + 2 * s.status.done.toNat + 4 * s.status.err.toNat +
      2 ^ 4 * s.status.errcode.toNat + 2 ^ 8 * s.status.stage.toNat + 2 ^ 12 * s.status.resbuf.toNat +
      2 ^ 16 * s.status.nsteps.toNat ∧
    (s.regValue .errinfo).toNat = s.errinfo.opc.toNat + 2 ^ 8 * s.errinfo.stage.toNat ∧
    (s.regValue .irqEn).toNat = s.irqEn.doneEn.toNat + 2 * s.irqEn.errEn.toNat ∧
    s.regValue .id = 0x59460007#32 ∧ s.regValue .cmd = s.cmd ∧ s.regValue .scr0Base = s.scr0Base ∧
    s.regValue .scr0Cap = s.scr0Cap ∧ s.regValue .scr1Base = s.scr1Base ∧ s.regValue .scr1Cap = s.scr1Cap ∧
    s.regValue .reserved = 0#32) ∧
  ∀ (s : State) (b : BankId) (k : Bank), (b, k) ∈ [(BankId.s, s.bankS), (.d, s.bankD), (.w, s.bankW)] →
    (s.regValue (.bank b .width)).toNat = k.width.toNat ∧ (s.regValue (.bank b .height)).toNat = k.height.toNat ∧
    (s.regValue (.bank b .format)).toNat =
      k.fmt.toNat + 2 ^ 4 * k.tiled.toNat + 2 ^ 8 * k.nbit.toNat + 2 ^ 16 * k.nlsb.toNat ∧
    (s.regValue (.bank b .tile)).toNat = k.tw.toNat + 2 ^ 8 * k.th.toNat + 2 ^ 16 * k.tsz.toNat ∧
    s.regValue (.bank b .reqStride) = k.reqStride ∧ s.regValue (.bank b .reqIosize) = k.reqIosize ∧
    s.regValue (.bank b .yStride) = k.yStride ∧ s.regValue (.bank b .uvStride) = k.uvStride ∧
    s.regValue (.bank b .ySize) = k.ySize ∧ s.regValue (.bank b .uvSize) = k.uvSize ∧
    s.regValue (.bank b .ioSize) = k.ioSize ∧ s.regValue (.bank b .bufSize) = k.bufSize ∧
    s.regValue (.bank b .base) = k.base ∧ (s.regValue (.bank b .valid)).toNat = k.valid.toNat ∧
    s.regValue (.bank b .reserved) = 0#32

/-- 10_state.md R42: an accepted write to a request field or `BUF_SIZE` of bank `S` or `D` clears that bank's `VALID` and no
other bank's; a write to any other slot leaves every `VALID` as it is. -/
def Obligations.RequestWriteClearsValid : Prop :=
  ∀ (s : State) (f : BankSlot) (v : Word), s.status.busy = false →
    (f ∈ [BankSlot.width, .height, .format, .tile, .reqStride, .reqIosize, .bufSize] →
      (s.writeReg (.bank .s f) v).bankS.valid = false ∧ (s.writeReg (.bank .s f) v).bankD = s.bankD ∧
      (s.writeReg (.bank .d f) v).bankD.valid = false ∧ (s.writeReg (.bank .d f) v).bankS = s.bankS) ∧
    (f ∈ [BankSlot.yStride, .uvStride, .ySize, .uvSize, .ioSize, .base, .valid, .reserved] →
      (s.writeReg (.bank .s f) v).bankS.valid = s.bankS.valid ∧ (s.writeReg (.bank .s f) v).bankD = s.bankD ∧
      (s.writeReg (.bank .d f) v).bankD.valid = s.bankD.valid ∧ (s.writeReg (.bank .d f) v).bankS = s.bankS)

/-- What a `STATUS` write does. 60_exceptions.md R203: the return from an error, after which a command is accepted again,
which clears `STAGE`. 10_state.md R24: in every other case a 1 in bit 1 clears `DONE`, a 0 keeps it, and no other bit does
anything. -/
def Obligations.AcknowledgeReturnsFromError : Prop :=
  (∀ (s : State) (v w : Word), s.StatusSound → s.status.err = true → v.getLsbD 2 = true →
    s.writeReg .status v =
      { s with status := { s.status with err := false, errcode := 0#4 }, errinfo := { opc := 0#8, stage := 0#4 } } ∧
    ((s.writeReg .status v).writeReg .cmd w).cmd = w ∧ ((s.writeReg .status v).writeReg .cmd w).status.busy = true ∧
    ((s.writeReg .status v).writeReg .cmd w).status.stage = 0#4) ∧
  ∀ (s : State) (v : Word), s.StatusSound → s.status.busy = false → s.status.err = false ∨ v.getLsbD 2 = false →
    s.writeReg .status v =
      { s with status := { s.status with done := if v.getLsbD 1 = true then false else s.status.done } }

/-- Host accesses to memory bytes (20_memory.md R60, R73, 70_reset_and_hazards.md R217): a byte of a region the engine owns
is refused, any other is read or written and nothing else changes. That the regions are held in `owned`, and that the
interrupt line being high gives them back, is the model's reading (log 6). -/
def Obligations.HostMemoryAccess : Prop :=
  ∀ (s : State) (a : Addr) (b : Byte) (rest : List Input) (held : List Region),
    ¬(s.status.busy = true ∧ s.wait = 0) → held = (if s.irq = true then [] else s.owned) →
    ((∃ r ∈ held, r.base ≤ a.toNat ∧ a.toNat < r.base + r.size) →
      (s.inputs = .memRead a :: rest → step s = .refused .hostRace) ∧
      (s.inputs = .memWrite a b :: rest → step s = .refused .hostRace)) ∧
    (¬(∃ r ∈ held, r.base ≤ a.toNat ∧ a.toNat < r.base + r.size) →
      (s.inputs = .memRead a :: rest →
        step s = .next { s with
          memData := Memory.read s.mem a.toNat
          owned := held
          wait := s.wait - 1
          inputs := rest }) ∧
      (s.inputs = .memWrite a b :: rest → Memory.wf s.mem = true →
        ∃ m : Memory, step s = .next { s with mem := m, owned := held, wait := s.wait - 1, inputs := rest } ∧
          Memory.read m a.toNat = b ∧ ∀ a', a' ≠ a.toNat → Memory.read m a' = Memory.read s.mem a'))

/-- 10_state.md R20, R21, R30: a register transaction that is misaligned, past the map or not 32 bits wide is refused; any
other reaches the register the map names at its offset, reading its value or writing it. A `STATUS` read that returns
`BUSY = 0` gives the engine's regions back (20_memory.md R73, R75), as the interrupt line does; that these are `owned`,
and the refusal, are the model's reading (logs 6, 13). -/
def Obligations.OffMapAccessRefused : Prop :=
  ∀ (s : State) (off width : Nat) (v : Word) (rest : List Input), ¬(s.status.busy = true ∧ s.wait = 0) →
    (off % 4 ≠ 0 ∨ 0x0FC < off ∨ width ≠ 32 →
      (s.inputs = .regRead off width :: rest → step s = .refused .registerAccess) ∧
      (s.inputs = .regWrite off width v :: rest → step s = .refused .registerAccess)) ∧
    ∀ r : Reg, (off, r) ∈ registerMap →
      (s.inputs = .regRead off 32 :: rest →
        step s = .next { s with
          regData := s.regValue r
          owned := if s.irq = true ∨ (r = .status ∧ s.status.busy = false) then [] else s.owned
          wait := s.wait - 1
          inputs := rest }) ∧
      (s.inputs = .regWrite off 32 v :: rest → r ≠ .cmd →
        step s = .next { s.writeReg r v with
          owned := if s.irq = true then [] else s.owned
          wait := s.wait - 1
          inputs := rest })

/-- 60_exceptions.md R202: the interrupt output is high exactly when an enabled completion flag is 1, so when a command
completes it is the enable of its kind of completion. -/
def Obligations.InterruptFollowsCompletion : Prop :=
  (∀ s : State, s.irq = true ↔
    (s.irqEn.doneEn = true ∧ s.status.done = true) ∨ (s.irqEn.errEn = true ∧ s.status.err = true)) ∧
  ∀ (i : Instr) (s t : State), s.status.err = false → exec i s = .next t →
    t.irq = if t.status.err = true then s.irqEn.errEn else s.irqEn.doneEn

/-! ### Reset -/

/-- 10_state.md R50: what every register reads after reset, and that the interrupt output is low. -/
def Obligations.ResetLeavesStatedValues : Prop :=
  (∀ r : Reg, State.reset.regValue r = if r = .id then 0x59460007#32 else 0x00000000#32) ∧ State.reset.irq = false

/-- 70_reset_and_hazards.md R210, R211: `reset` puts every register at its reset value; it leaves memory alone, but for the
bytes a running command was allowed to write (which those are is the model's reading, log 7). The engine owns no region
afterwards (log 6). -/
def Obligations.ResetInputLeavesMemory : Prop :=
  ∀ (s : State) (rest : List Input), ¬(s.status.busy = true ∧ s.wait = 0) → s.inputs = .reset :: rest →
    ∃ t : State, step s = .next t ∧ (∀ r : Reg, t.regValue r = State.reset.regValue r) ∧ t.irq = false ∧
      t.owned = [] ∧ (s.status.busy = false → t.mem = s.mem) ∧
      ∀ a : Nat, (∀ i : Instr, decode s.cmd = .ok i → ∀ r ∈ s.writableRegions i, r.contains a = false) →
        Memory.read t.mem a = Memory.read s.mem a

/-- The reset state meets the invariant. -/
def Obligations.ResetMeetsInvariant : Prop := State.reset.Inv

/-! ### Invariants that every step keeps -/

/-- Every step keeps memory in canonical form. -/
def Obligations.StepKeepsMemoryCanonical : Prop :=
  ∀ s t : State, Memory.wf s.mem = true → step s = .next t → Memory.wf t.mem = true

/-- Every step keeps the status registers sound: at most one of `BUSY`, `DONE`, `ERR`; no error code without `ERR`;
`ERRINFO` names the failed command; only stage ids, codes and buffer numbers that occur. -/
def Obligations.StepKeepsStatusSound : Prop :=
  ∀ s t : State, s.StatusSound → step s = .next t → t.StatusSound

/-- Every step keeps banks `S` and `D` sound: `VALID = 1` only with the derived fields of the present request. -/
def Obligations.StepKeepsOperandBanksSound : Prop :=
  ∀ s t : State, s.OperandsSound → step s = .next t → t.OperandsSound

/-- Every step keeps bank `W` sound. -/
def Obligations.StepKeepsResultBankSound : Prop :=
  ∀ s t : State, s.OperandsSound → s.bankW.sound = true → step s = .next t → t.bankW.sound = true

/-- With sound banks no step faults: every address a command forms lies in memory. -/
def Obligations.SoundStateNeverFaults : Prop :=
  ∀ (s : State) (f : Fault), s.OperandsSound → step s ≠ .fault f

/-! ### All commands -/

/-- A command completes with `DONE`, or with `ERR` and no effect but error entry (60_exceptions.md R198, R204, R207). -/
def Obligations.CommandsEndInDoneOrPreciseError : Prop :=
  ∀ (i : Instr) (s t : State), s.status.err = false → exec i s = .next t →
    (t.status.busy = false ∧ t.status.done = true ∧ t.status.err = false ∧ t.status.errcode = s.status.errcode ∧
      t.errinfo = s.errinfo) ∨
    ∃ (c : ErrCode) (g : Stage), t = s.failedWith c.code g.id

/-- Which state each command leaves alone (30_encoding.md R82): no command writes `CMD`, `IRQ_EN`, a scratch register, a
request field, `BUF_SIZE` or `BASE` of bank `S`, or `BUF_SIZE` or `BASE` of bank `D`; bank `S` changes only by `LAYOUT.S`,
bank `D` only by `LAYOUT.D` and `COPYLAYOUT`, bank `W`, `RESBUF` and `NSTEPS` only by `CONVERT`; memory is left alone by
`NOP` and the layout commands. -/
def Obligations.CommandFrame : Prop :=
  ∀ (i : Instr) (s t : State), exec i s = .next t →
    (t.cmd = s.cmd ∧ t.irqEn = s.irqEn ∧ t.scr0Base = s.scr0Base ∧ t.scr0Cap = s.scr0Cap ∧ t.scr1Base = s.scr1Base ∧
      t.scr1Cap = s.scr1Cap ∧ t.owned = s.owned ∧ t.wait = s.wait ∧ t.tCmds = s.tCmds ∧ t.inputs = s.inputs ∧
      t.regData = s.regData ∧ t.memData = s.memData ∧ t.epoch = s.epoch) ∧
    (t.bankS.request = s.bankS.request ∧ t.bankS.base = s.bankS.base ∧ t.bankD.bufSize = s.bankD.bufSize ∧
      t.bankD.base = s.bankD.base) ∧
    (i ≠ .layoutS → t.bankS = s.bankS) ∧
    (i ≠ .layoutD → i ≠ .copylayout → t.bankD = s.bankD) ∧
    (i ≠ .convert → t.bankW = s.bankW ∧ t.status.resbuf = s.status.resbuf ∧ t.status.nsteps = s.status.nsteps) ∧
    (i ∈ [Instr.nop, .layoutS, .layoutD, .copylayout] → t.mem = s.mem)

/-- A primitive changes no byte outside its destination region, and a byte of the source region in particular never
(20_memory.md R72). -/
def Obligations.PrimitivesWriteOnlyDestination : Prop :=
  ∀ (p : Prim) (s t : State), s.OperandsSound → exec p.instr s = .next t →
    (∀ a : Nat, s.bankD.region.contains a = false → Memory.read t.mem a = Memory.read s.mem a) ∧
    ∀ a : Nat, s.bankS.region.contains a = true → Memory.read t.mem a = Memory.read s.mem a

/-- `CONVERT` changes no byte outside the two scratch buffers, and never a byte of the source frame
(20_memory.md R72, 43_orchestrator.md R177, R182). -/
def Obligations.ConvertWritesOnlyScratch : Prop :=
  ∀ s t : State, s.OperandsSound → exec .convert s = .next t →
    (∀ a : Nat, s.scr0.contains a = false → s.scr1.contains a = false → Memory.read t.mem a = Memory.read s.mem a) ∧
    ∀ a : Nat, s.bankS.region.contains a = true → Memory.read t.mem a = Memory.read s.mem a

/-! ### Layout -/

/-- 40_classifier_layout.md R104. -/
def Obligations.NopCompletes : Prop :=
  ∀ s : State, exec .nop s = .next { s with status := { s.status with busy := false, done := true } }

/-- 40_classifier_layout.md R115, R116: `LAYOUT.S` and `LAYOUT.D` write the five derived fields, none truncated, and
`VALID`, and nothing else but completion; a layout error is raised with nothing written. -/
def Obligations.LayoutCommandsWriteDerivedFields : Prop :=
  ∀ (s : State) (r : Derived),
    (layout s.bankS.request = .ok r →
      ∃ b : Bank, exec .layoutS s =
          .next { s with bankS := b, status := { s.status with busy := false, done := true } } ∧
        b = { s.bankS with yStride := b.yStride, uvStride := b.uvStride, ySize := b.ySize, uvSize := b.uvSize,
                           ioSize := b.ioSize, valid := true } ∧ b.derived = r) ∧
    (layout s.bankD.request = .ok r →
      ∃ b : Bank, exec .layoutD s =
          .next { s with bankD := b, status := { s.status with busy := false, done := true } } ∧
        b = { s.bankD with yStride := b.yStride, uvStride := b.uvStride, ySize := b.ySize, uvSize := b.uvSize,
                           ioSize := b.ioSize, valid := true } ∧ b.derived = r) ∧
    (∀ c : ErrCode, layout s.bankS.request = .error c → exec .layoutS s = .next (s.failedWith c.code 0#4)) ∧
    ∀ c : ErrCode, layout s.bankD.request = .error c → exec .layoutD s = .next (s.failedWith c.code 0#4)

/-- 40_classifier_layout.md R117: `COPYLAYOUT` copies the six request fields of `S`, lays them out against `D`'s own
capacity, and keeps `D.BASE` and `D.BUF_SIZE`; on an error bank `D` is unchanged. -/
def Obligations.CopylayoutStampsDestination : Prop :=
  ∀ s : State,
    (∀ r : Derived, layout { s.bankS.request with bufSize := s.bankD.bufSize.toNat } = .ok r →
      ∃ b : Bank, exec .copylayout s =
          .next { s with bankD := b, status := { s.status with busy := false, done := true } } ∧
        b = { s.bankS with yStride := b.yStride, uvStride := b.uvStride, ySize := b.ySize, uvSize := b.uvSize,
                           ioSize := b.ioSize, bufSize := s.bankD.bufSize, base := s.bankD.base, valid := true } ∧
        b.derived = r) ∧
    ∀ c : ErrCode, layout { s.bankS.request with bufSize := s.bankD.bufSize.toNat } = .error c →
      exec .copylayout s = .next (s.failedWith c.code 0#4)

/-- 40_classifier_layout.md R110 and R112: which error a layout raises. The checks L1 to L5 come first, then L6 to L10, the
capacity last. -/
def Obligations.LayoutErrorOrder : Prop :=
  (ErrCode.unsup.code = 1#4 ∧ ErrCode.geom.code = 3#4) ∧ ∀ (r : Request) (unsup geom : Prop),
    (unsup ↔ r.fmt = .funsup ∨ ¬(r.nbit = 8 ∨ r.nbit = 10 ∨ r.nbit = 16) ∨ r.nbit < r.nlsb ∨
      (r.tiled = true ∧ r.nbit = 16) ∨ (r.tiled = true ∧ (r.fmt = .fuyvy ∨ r.fmt = .fyuyv))) →
    (geom ↔ r.width = 0 ∨ r.height = 0 ∨ (r.fmt ≠ .f400p ∧ r.width % 2 = 1) ∨
      ((r.fmt = .f420p ∨ r.fmt = .f420sp ∨ r.fmt = .f420spa) ∧ r.height % 2 = 1) ∨
      (r.tiled = true ∧ r.tsz % 8 ≠ 0) ∨
      (r.tiled = true ∧ ((r.nbit = 8 ∧ (r.tw, r.th, r.tsz) ≠ (8, 4, 32)) ∨
        (r.nbit = 10 ∧ (r.tw, r.th, r.tsz) ≠ (3, 4, 16))))) →
    (unsup → layout r = .error .unsup) ∧
    (¬unsup → geom → layout r = .error .geom) ∧
    (¬unsup → ¬geom → r.bufSize < r.frameSize → layout r = .error .alloc) ∧
    (¬unsup → ¬geom → r.frameSize ≤ r.bufSize → layout r = .ok r.derive)

/-- 40_classifier_layout.md R107, R108, R109, R111: the derived fields, with `ceil_div` as 00_scope.md R9 defines it. -/
def Obligations.LayoutFormulas : Prop :=
  ∀ (r : Request) (d : Derived) (isCeil : Nat → Nat → Nat → Prop),
    (∀ a b q, isCeil a b q ↔ a ≤ q * b ∧ ∀ q', a ≤ q' * b → q ≤ q') →
    layout r = .ok d →
    -- luma
    (r.tiled = true → ∃ q n, isCeil r.width r.tw q ∧ isCeil r.height r.th n ∧
      d.yStride = max (q * r.tsz) r.reqStride ∧ d.ySize = d.yStride * n) ∧
    (r.tiled = false → ∃ q, isCeil (r.width * r.nbit) 8 q ∧
      d.yStride = max (if r.fmt = .fuyvy ∨ r.fmt = .fyuyv then 2 * q else q) r.reqStride ∧
      d.ySize = d.yStride * r.height) ∧
    -- no chroma plane
    ((r.fmt = .f400p ∨ r.fmt = .fuyvy ∨ r.fmt = .fyuyv) →
      d.uvStride = 0 ∧ d.uvSize = 0 ∧ d.ioSize = max d.ySize r.reqIosize) ∧
    -- one combined chroma plane
    ((r.fmt = .f420sp ∨ r.fmt = .f420spa ∨ r.fmt = .f422sp ∨ r.fmt = .f422spa) →
      d.uvStride = d.yStride ∧ d.ioSize = max (d.ySize + d.uvSize) r.reqIosize) ∧
    -- two chroma planes
    ((r.fmt = .f420p ∨ r.fmt = .f422p) →
      (r.tiled = true → ∃ q, isCeil (r.width / 2) r.tw q ∧ d.uvStride = q * r.tsz) ∧
      (r.tiled = false → isCeil d.yStride 2 d.uvStride) ∧
      d.ioSize = max (d.ySize + 2 * d.uvSize) r.reqIosize) ∧
    -- chroma rows
    (r.fmt ≠ .f400p → r.fmt ≠ .fuyvy → r.fmt ≠ .fyuyv →
      ∃ ch, ch = (if r.fmt = .f420p ∨ r.fmt = .f420sp ∨ r.fmt = .f420spa then r.height / 2 else r.height) ∧
        (r.tiled = true → ∃ n, isCeil ch r.th n ∧ d.uvSize = d.uvStride * n) ∧
        (r.tiled = false → d.uvSize = d.uvStride * ch))

/-- 40_classifier_layout.md R113: the bounds of a laid-out descriptor. -/
def Obligations.LayoutBounds : Prop :=
  ∀ (r : Request) (v : Derived) (d : Desc), layout r = .ok v → r.bufSize < 4294967296 → d.toRequest = r →
    d.toDerived = v →
    d.uvStride ≤ d.yStride ∧ d.yStride ≤ d.ySize ∧ d.ySize ≤ d.ioSize ∧ d.ioSize ≤ d.bufSize ∧
    d.bufSize < 4294967296 ∧ d.uvSize ≤ d.ioSize ∧
    (∀ i, i < (planes d).length →
      (plane d i).off + (plane d i).stride * storageRows d (plane d i) ≤ d.ioSize ∧
      rowBytes d (plane d i) ≤ (plane d i).stride) ∧
    (∀ a, d.naturalByte a → d.base ≤ a ∧ a < d.base + d.ioSize) ∧
    ∀ i x y, d.hasSample i x y →
      (d.tiled = false → d.nbit = 8 ∨ d.nbit = 16 →
        d.base ≤ sampleAddr d (plane d i) (d.nbit / 8) x y ∧
        sampleAddr d (plane d i) (d.nbit / 8) x y + d.nbit / 8 ≤ d.base + d.ioSize) ∧
      (d.tiled = false → d.nbit = 10 →
        d.base ≤ rowAddr d (plane d i) y + 10 * x / 8 ∧
        rowAddr d (plane d i) y + (10 * x + 9) / 8 < d.base + d.ioSize) ∧
      (d.tiled = true → d.nbit = 8 →
        d.base ≤ tileAddr8 d (plane d i) x y ∧ tileAddr8 d (plane d i) x y < d.base + d.ioSize) ∧
      (d.tiled = true → d.nbit = 10 →
        d.base ≤ tileWordAddr10 d (plane d i) x y ∧ tileWordAddr10 d (plane d i) x y + 4 ≤ d.base + d.ioSize)

/-- 40_classifier_layout.md R114: the invariants of a laid-out descriptor. -/
def Obligations.LayoutInvariants : Prop :=
  ∀ (r : Request) (d : Derived), layout r = .ok d →
    r.nlsb ≤ r.nbit ∧ (r.nbit = 8 ∨ r.nbit = 10 ∨ r.nbit = 16) ∧
    (r.tiled = false → r.width * r.nbit ≤ 8 * d.yStride) ∧
    (r.tiled = false → r.fmt = .f420p ∨ r.fmt = .f422p →
      2 * d.uvStride = d.yStride ∨ 2 * d.uvStride = d.yStride + 1) ∧
    (r.tiled = false → r.fmt = .f420sp ∨ r.fmt = .f420spa ∨ r.fmt = .f422sp ∨ r.fmt = .f422spa →
      d.uvStride = d.yStride) ∧
    (r.fmt = .f420sp ∨ r.fmt = .f420spa → r.height % 2 = 0) ∧
    d.ioSize ≤ r.bufSize ∧ (r.tiled = true → r.nbit = 8 ∨ r.nbit = 10)

/-- 40_classifier_layout.md R118: the chroma ratios of a layout without requests. -/
def Obligations.LayoutChromaRatios : Prop :=
  ∀ (r : Request) (d : Derived) (exact : Prop), layout r = .ok d → r.reqStride = 0 → r.reqIosize = 0 →
    (exact ↔
      (r.fmt = .f400p → d.uvSize = 0) ∧ (r.fmt = .f420p → 4 * d.uvSize = d.ySize) ∧
      (r.fmt = .f420sp ∨ r.fmt = .f420spa → 2 * d.uvSize = d.ySize) ∧ (r.fmt = .f422p → 2 * d.uvSize = d.ySize) ∧
      (r.fmt = .f422sp ∨ r.fmt = .f422spa → d.uvSize = d.ySize) ∧ (r.fmt = .fuyvy ∨ r.fmt = .fyuyv → d.uvSize = 0)) →
    d.uvStride ≤ d.yStride ∧
    (r.tiled = false → d.yStride % 2 = 0 → exact) ∧
    (r.tiled = false → d.yStride % 2 = 1 →
      (r.fmt ≠ .f400p → r.nbit = 10) ∧ (r.fmt = .f420p → 4 * d.uvSize = d.ySize + r.height) ∧
      (r.fmt = .f422p → 2 * d.uvSize = d.ySize + r.height)) ∧
    (r.tiled = true → r.width % (2 * r.tw) = 0 → r.chromaRows % r.th = 0 → exact)

/-! ### Primitives -/

/-- 41_codec.md R120, R121, 60_exceptions.md R199: the checks of a primitive in their order, the first that fails being the
error, with no other effect. -/
def Obligations.PrimitiveCheckOrder : Prop :=
  ∀ (p : Prim) (s : State) (S D : Desc) (needsDepth : Prop), S = s.bankS.desc → D = s.bankD.desc →
    (needsDepth ↔ p ∈ [Prim.sp2p, .p2sp, .pk2p, .p2pk, .resample, .rectcopy]) →
    (¬(s.bankS.valid = true ∧ s.bankD.valid = true) → exec p.instr s = .next (s.failedWith 7#4 0#4)) ∧
    (s.bankS.valid = true → s.bankD.valid = true →
      (¬p.Admits S D → exec p.instr s = .next (s.failedWith 1#4 0#4)) ∧
      (p.Admits S D →
        (S.width ≠ D.width ∨ S.height ≠ D.height ∨ (needsDepth ∧ S.nbit ≠ D.nbit) →
          exec p.instr s = .next (s.failedWith 2#4 0#4)) ∧
        (¬(S.width ≠ D.width ∨ S.height ≠ D.height ∨ (needsDepth ∧ S.nbit ≠ D.nbit)) →
          (4294967296 < S.base + S.ioSize ∨ 4294967296 < D.base + D.ioSize →
            exec p.instr s = .next (s.failedWith 4#4 0#4)) ∧
          (¬(4294967296 < S.base + S.ioSize ∨ 4294967296 < D.base + D.ioSize) →
            S.base < D.base + D.ioSize ∧ D.base < S.base + S.ioSize →
            exec p.instr s = .next (s.failedWith 5#4 0#4)))))

/-- 41_codec.md R123: the accumulator procedure returns the closed form of 20_memory.md R69, `n` values below 1024. -/
def Obligations.UnpackRowClosedForm : Prop :=
  ∀ (m : Memory) (ra n x : Nat), x < n →
    (unpackRow m ra n).length = n ∧ (unpackRow m ra n).getD x 0 = compactSample m ra x ∧ compactSample m ra x < 1024

/-- 41_codec.md R127, R130: packing writes exactly the `ceil(10n/8)` bytes of the row, with the pad bits 0; unpacking then
returns the values, and packing what was unpacked from a row with pad bits 0 rewrites the same bytes. -/
def Obligations.PackRowRoundTrip : Prop :=
  (∀ (m : Memory) (ra : Nat) (v : List Nat), Memory.wf m = true → (∀ x ∈ v, x < 1024) →
    ra + ceilDiv (10 * v.length) 8 ≤ 4294967296 →
    unpackRow (packRow m ra v) ra v.length = v ∧
    (∀ a, a < ra ∨ ra + ceilDiv (10 * v.length) 8 ≤ a → Memory.read (packRow m ra v) a = Memory.read m a) ∧
    ∀ j, 10 * v.length ≤ j → j < 8 * ceilDiv (10 * v.length) 8 → rowBit (packRow m ra v) ra j = 0) ∧
  ∀ (m : Memory) (ra n : Nat), Memory.wf m = true → ra + ceilDiv (10 * n) 8 ≤ 4294967296 →
    (∀ j, 10 * n ≤ j → j < 8 * ceilDiv (10 * n) 8 → rowBit m ra j = 0) →
    ∀ a, Memory.read (packRow m ra (unpackRow m ra n)) a = Memory.read m a

/-- 41_codec.md R124: `UNPACK10`, raster and tiled. -/
def Obligations.Unpack10Result : Prop :=
  ∀ (s : State) (S D : Desc), S = s.bankS.desc → D = s.bankD.desc → s.FramesReady →
    S.nbit = 10 → D.nbit = 16 → D.nlsb = 10 → S.fmt = D.fmt →
    ∃ m : Memory, exec .unpack10 s = .next (s.doneWith m) ∧ keepsOutside D s.mem m ∧
      ∀ i x y, S.hasSample i x y →
        Memory.readLE m (sampleAddr D (plane D i) 2 x y) 2 =
          if S.tiled = true then tiledSample10 s.mem S (plane S i) x y
          else compactSample s.mem (rowAddr S (plane S i) y) x

/-- 41_codec.md R128: `PACK10`, raster and tiled, pad bits and pad samples written 0. -/
def Obligations.Pack10Result : Prop :=
  ∀ (s : State) (S D : Desc), S = s.bankS.desc → D = s.bankD.desc → s.FramesReady →
    S.nbit = 16 → S.nlsb = 10 → D.nbit = 10 → S.fmt = D.fmt →
    ∃ m : Memory, exec .pack10 s = .next (s.doneWith m) ∧ keepsOutside D s.mem m ∧
      (D.tiled = false →
        (∀ i x y, S.hasSample i x y →
          compactSample m (rowAddr D (plane D i) y) x =
            Memory.readLE s.mem (sampleAddr S (plane S i) 2 x y) 2 % 1024) ∧
        ∀ i y j, i < (planes D).length → y < (plane D i).rows → 10 * (plane D i).ws ≤ j →
          j < 8 * rowBytes D (plane D i) → rowBit m (rowAddr D (plane D i) y) j = 0) ∧
      (D.tiled = true → ∀ i tx ty r (v : Nat → Nat), i < (planes D).length → ty < ceilDiv (plane D i).rows 4 →
        tx < ceilDiv (plane D i).ws 3 → r < 4 →
        (∀ c, v c = if 3 * tx + c < (plane S i).ws ∧ 4 * ty + r < (plane S i).rows then
          Memory.readLE s.mem (sampleAddr S (plane S i) 2 (3 * tx + c) (4 * ty + r)) 2 % 1024 else 0) →
        Memory.readLE m (D.base + (plane D i).off + ty * (plane D i).stride + tx * 16 + 4 * r) 4 =
          v 0 + v 1 * 1024 + v 2 * 1048576)

/-- 41_codec.md R131: `NARROW`. -/
def Obligations.NarrowResult : Prop :=
  ∀ (s : State) (S D : Desc), S = s.bankS.desc → D = s.bankD.desc → s.FramesReady →
    S.nbit = 16 → D.nbit = 8 → D.tiled = false → S.fmt = D.fmt → (S.nlsb = 0 ∨ 8 ≤ S.nlsb) →
    ∃ m : Memory, exec .narrow s = .next (s.doneWith m) ∧ keepsOutside D s.mem m ∧
      ∀ i x y, S.hasSample i x y →
        (Memory.read m (sampleAddr D (plane D i) 1 x y)).toNat =
          Memory.readLE s.mem (sampleAddr S (plane S i) 2 x y) 2 / 2 ^ ((if S.nlsb = 0 then 16 else S.nlsb) - 8) % 256

/-- 41_codec.md R132: `WIDEN`. -/
def Obligations.WidenResult : Prop :=
  ∀ (s : State) (S D : Desc), S = s.bankS.desc → D = s.bankD.desc → s.FramesReady →
    S.nbit = 8 → S.tiled = false → D.nbit = 16 → S.fmt = D.fmt → (D.nlsb = 0 ∨ 8 ≤ D.nlsb) →
    ∃ m : Memory, exec .widen s = .next (s.doneWith m) ∧ keepsOutside D s.mem m ∧
      ∀ i x y, S.hasSample i x y →
        Memory.readLE m (sampleAddr D (plane D i) 2 x y) 2 =
          (Memory.read s.mem (sampleAddr S (plane S i) 1 x y)).toNat * 2 ^ ((if D.nlsb = 0 then 16 else D.nlsb) - 8)

/-- 41_codec.md R133: `RESCALE16`, left for a positive amount with the low 16 bits kept, right for a negative one. -/
def Obligations.Rescale16Result : Prop :=
  ∀ (s : State) (S D : Desc) (es ed : Nat), S = s.bankS.desc → D = s.bankD.desc → s.FramesReady →
    S.nbit = 16 → D.nbit = 16 → S.fmt = D.fmt →
    es = (if S.nlsb = 0 then 16 else S.nlsb) → ed = (if D.nlsb = 0 then 16 else D.nlsb) →
    ∃ m : Memory, exec .rescale16 s = .next (s.doneWith m) ∧ keepsOutside D s.mem m ∧
      ∀ i x y, S.hasSample i x y →
        Memory.readLE m (sampleAddr D (plane D i) 2 x y) 2 =
          if es ≤ ed then Memory.readLE s.mem (sampleAddr S (plane S i) 2 x y) 2 * 2 ^ (ed - es) % 65536
          else Memory.readLE s.mem (sampleAddr S (plane S i) 2 x y) 2 / 2 ^ (es - ed)

/-- 42_remapper.md R143: `UNTILE8`. -/
def Obligations.Untile8Result : Prop :=
  ∀ (s : State) (S D : Desc), S = s.bankS.desc → D = s.bankD.desc → s.FramesReady →
    S.nbit = 8 → S.tiled = true → D.nbit = 8 → D.tiled = false → S.fmt = D.fmt →
    ∃ m : Memory, exec .untile8 s = .next (s.doneWith m) ∧ keepsOutside D s.mem m ∧
      ∀ i x y, S.hasSample i x y →
        Memory.read m (sampleAddr D (plane D i) 1 x y) = Memory.read s.mem (tileAddr8 S (plane S i) x y)

/-- 42_remapper.md R144: `TILE8`, pad samples written 0. -/
def Obligations.Tile8Result : Prop :=
  ∀ (s : State) (S D : Desc), S = s.bankS.desc → D = s.bankD.desc → s.FramesReady →
    S.nbit = 8 → S.tiled = false → D.nbit = 8 → D.tiled = true → S.fmt = D.fmt →
    ∃ m : Memory, exec .tile8 s = .next (s.doneWith m) ∧ keepsOutside D s.mem m ∧
      ∀ i tx ty r c, i < (planes D).length → ty < ceilDiv (plane D i).rows 4 → tx < ceilDiv (plane D i).ws 8 →
        r < 4 → c < 8 →
        Memory.read m (D.base + (plane D i).off + ty * (plane D i).stride + tx * 32 + 8 * r + c) =
          if 8 * tx + c < (plane S i).ws ∧ 4 * ty + r < (plane S i).rows then
            Memory.read s.mem (sampleAddr S (plane S i) 1 (8 * tx + c) (4 * ty + r))
          else 0#8

/-- 42_remapper.md R145: `UNTILE8` of what `TILE8` wrote reproduces every sample of every plane. -/
def Obligations.TileThenUntile : Prop :=
  ∀ (s t u : State) (b : Bank), s.FramesReady → exec .tile8 s = .next t → t.status.done = true →
    t.status.err = false → State.FramesReady { t with bankS := s.bankD, bankD := b } →
    exec .untile8 { t with bankS := s.bankD, bankD := b } = .next u → u.status.done = true → u.status.err = false →
    ∀ i x y, s.bankS.desc.hasSample i x y →
      Memory.read u.mem (sampleAddr b.desc (plane b.desc i) 1 x y) =
        Memory.read s.mem (sampleAddr s.bankS.desc (plane s.bankS.desc i) 1 x y)

/-- 42_remapper.md R146, R147: `SP2P`. -/
def Obligations.Sp2pResult : Prop :=
  ∀ (s : State) (S D : Desc) (b u v : Nat), S = s.bankS.desc → D = s.bankD.desc → s.FramesReady →
    S.ByteRaster → D.ByteRaster → S.nbit = D.nbit → b = S.nbit / 8 →
    ((S.fmt = .f420sp ∧ D.fmt = .f420p ∧ u = 1 ∧ v = 2) ∨ (S.fmt = .f422sp ∧ D.fmt = .f422p ∧ u = 1 ∧ v = 2) ∨
      (S.fmt = .f420spa ∧ D.fmt = .f420p ∧ u = 2 ∧ v = 1) ∨ (S.fmt = .f422spa ∧ D.fmt = .f422p ∧ u = 2 ∧ v = 1)) →
    ∃ m : Memory, exec .sp2p s = .next (s.doneWith m) ∧ keepsOutside D s.mem m ∧
      (∀ x y, S.hasSample 0 x y →
        Memory.readLE m (sampleAddr D (plane D 0) b x y) b = Memory.readLE s.mem (sampleAddr S (plane S 0) b x y) b) ∧
      ∀ i y, i < S.width / 2 → y < (plane S 1).rows →
        Memory.readLE m (sampleAddr D (plane D u) b i y) b =
          Memory.readLE s.mem (sampleAddr S (plane S 1) b (2 * i) y) b ∧
        Memory.readLE m (sampleAddr D (plane D v) b i y) b =
          Memory.readLE s.mem (sampleAddr S (plane S 1) b (2 * i + 1) y) b

/-- 42_remapper.md R146, R148: `P2SP`. -/
def Obligations.P2spResult : Prop :=
  ∀ (s : State) (S D : Desc) (b u v : Nat), S = s.bankS.desc → D = s.bankD.desc → s.FramesReady →
    S.ByteRaster → D.ByteRaster → S.nbit = D.nbit → b = S.nbit / 8 →
    ((D.fmt = .f420sp ∧ S.fmt = .f420p ∧ u = 1 ∧ v = 2) ∨ (D.fmt = .f422sp ∧ S.fmt = .f422p ∧ u = 1 ∧ v = 2) ∨
      (D.fmt = .f420spa ∧ S.fmt = .f420p ∧ u = 2 ∧ v = 1) ∨ (D.fmt = .f422spa ∧ S.fmt = .f422p ∧ u = 2 ∧ v = 1)) →
    ∃ m : Memory, exec .p2sp s = .next (s.doneWith m) ∧ keepsOutside D s.mem m ∧
      (∀ x y, S.hasSample 0 x y →
        Memory.readLE m (sampleAddr D (plane D 0) b x y) b = Memory.readLE s.mem (sampleAddr S (plane S 0) b x y) b) ∧
      ∀ i y, i < D.width / 2 → y < (plane D 1).rows →
        Memory.readLE m (sampleAddr D (plane D 1) b (2 * i) y) b =
          Memory.readLE s.mem (sampleAddr S (plane S u) b i y) b ∧
        Memory.readLE m (sampleAddr D (plane D 1) b (2 * i + 1) y) b =
          Memory.readLE s.mem (sampleAddr S (plane S v) b i y) b

/-- 42_remapper.md R150, R151: `PK2P`. -/
def Obligations.Pk2pResult : Prop :=
  ∀ (s : State) (S D : Desc) (b iy0 iu iy1 iv : Nat), S = s.bankS.desc → D = s.bankD.desc → s.FramesReady →
    S.ByteRaster → D.ByteRaster → S.nbit = D.nbit → b = S.nbit / 8 → D.fmt = .f422p →
    ((S.fmt = .fuyvy ∧ iy0 = 1 ∧ iu = 0 ∧ iy1 = 3 ∧ iv = 2) ∨
      (S.fmt = .fyuyv ∧ iy0 = 0 ∧ iu = 1 ∧ iy1 = 2 ∧ iv = 3)) →
    ∃ m : Memory, exec .pk2p s = .next (s.doneWith m) ∧ keepsOutside D s.mem m ∧
      ∀ p y, p < S.width / 2 → y < S.height →
        Memory.readLE m (sampleAddr D (plane D 0) b (2 * p) y) b =
          Memory.readLE s.mem (sampleAddr S (plane S 0) b (4 * p + iy0) y) b ∧
        Memory.readLE m (sampleAddr D (plane D 0) b (2 * p + 1) y) b =
          Memory.readLE s.mem (sampleAddr S (plane S 0) b (4 * p + iy1) y) b ∧
        Memory.readLE m (sampleAddr D (plane D 1) b p y) b =
          Memory.readLE s.mem (sampleAddr S (plane S 0) b (4 * p + iu) y) b ∧
        Memory.readLE m (sampleAddr D (plane D 2) b p y) b =
          Memory.readLE s.mem (sampleAddr S (plane S 0) b (4 * p + iv) y) b

/-- 42_remapper.md R150, R152: `P2PK`. -/
def Obligations.P2pkResult : Prop :=
  ∀ (s : State) (S D : Desc) (b iy0 iu iy1 iv : Nat), S = s.bankS.desc → D = s.bankD.desc → s.FramesReady →
    S.ByteRaster → D.ByteRaster → S.nbit = D.nbit → b = S.nbit / 8 → S.fmt = .f422p →
    ((D.fmt = .fuyvy ∧ iy0 = 1 ∧ iu = 0 ∧ iy1 = 3 ∧ iv = 2) ∨
      (D.fmt = .fyuyv ∧ iy0 = 0 ∧ iu = 1 ∧ iy1 = 2 ∧ iv = 3)) →
    ∃ m : Memory, exec .p2pk s = .next (s.doneWith m) ∧ keepsOutside D s.mem m ∧
      ∀ p y, p < S.width / 2 → y < S.height →
        Memory.readLE m (sampleAddr D (plane D 0) b (4 * p + iy0) y) b =
          Memory.readLE s.mem (sampleAddr S (plane S 0) b (2 * p) y) b ∧
        Memory.readLE m (sampleAddr D (plane D 0) b (4 * p + iy1) y) b =
          Memory.readLE s.mem (sampleAddr S (plane S 0) b (2 * p + 1) y) b ∧
        Memory.readLE m (sampleAddr D (plane D 0) b (4 * p + iu) y) b =
          Memory.readLE s.mem (sampleAddr S (plane S 1) b p y) b ∧
        Memory.readLE m (sampleAddr D (plane D 0) b (4 * p + iv) y) b =
          Memory.readLE s.mem (sampleAddr S (plane S 2) b p y) b

/-- 42_remapper.md R154, R155: `RESAMPLE`, row selection without averaging. -/
def Obligations.ResampleResult : Prop :=
  ∀ (s : State) (S D : Desc) (b : Nat), S = s.bankS.desc → D = s.bankD.desc → s.FramesReady →
    S.ByteRaster → D.ByteRaster → S.nbit = D.nbit → b = S.nbit / 8 →
    (S.fmt = .f420p ∨ S.fmt = .f422p) → (D.fmt = .f420p ∨ D.fmt = .f422p) →
    ∃ m : Memory, exec .resample s = .next (s.doneWith m) ∧ keepsOutside D s.mem m ∧
      (∀ x y, S.hasSample 0 x y →
        Memory.readLE m (sampleAddr D (plane D 0) b x y) b = Memory.readLE s.mem (sampleAddr S (plane S 0) b x y) b) ∧
      ∀ i x j, i = 1 ∨ i = 2 → D.hasSample i x j →
        Memory.readLE m (sampleAddr D (plane D i) b x j) b =
          Memory.readLE s.mem
            (sampleAddr S (plane S i) b x
              (if S.fmt = .f422p ∧ D.fmt = .f420p then 2 * j
                else if S.fmt = .f420p ∧ D.fmt = .f422p then j / 2 else j)) b

/-- 42_remapper.md R157, R158: `RECTCOPY`, at every depth and tiling. -/
def Obligations.RectcopyResult : Prop :=
  ∀ (s : State) (S D : Desc), S = s.bankS.desc → D = s.bankD.desc → s.FramesReady →
    S.fmt = D.fmt → S.tiled = D.tiled → S.nbit = D.nbit →
    ∃ m : Memory, exec .rectcopy s = .next (s.doneWith m) ∧ keepsOutside D s.mem m ∧
      ∀ i y k, i < (planes S).length → y < storageRows S (plane S i) → k < rowBytes S (plane S i) →
        Memory.read m (rowAddr D (plane D i) y + k) = Memory.read s.mem (rowAddr S (plane S i) y + k)

/-! ### CONVERT -/

/-- 43_orchestrator.md R175, R180: what a successful `CONVERT` leaves in memory (its steps run in order; what each of them
does is `ConvertStepsArePrimitives`), `STATUS` and bank `W`. -/
def Obligations.ConvertResult : Prop :=
  ∀ (s : State) (steps : List PlanStep), s.OperandsSound → convertPlan s = .ok steps →
    ∃ t : State, exec .convert s = .next t ∧
      t = { s with mem := t.mem, bankW := t.bankW, status := t.status } ∧
      t.status = { s.status with busy := false, done := true, nsteps := t.status.nsteps, stage := t.status.stage,
                                 resbuf := t.status.resbuf } ∧
      t.mem = (runSteps s 0 s.bankS.desc steps s.mem).1 ∧ t.status.nsteps.toNat = steps.length ∧
      (steps = [] → t.mem = s.mem ∧ t.bankW = s.bankS ∧ t.status.stage = 0#4 ∧ t.status.resbuf = 0#2) ∧
      ∀ (pre : List PlanStep) (x : PlanStep), steps = pre ++ [x] →
        t.status.stage = x.stage.id ∧ t.status.resbuf = (if pre.length % 2 = 0 then 1#2 else 2#2) ∧
        t.bankW.valid = true ∧
        t.bankW.desc = { x.next with base := (if pre.length % 2 = 0 then s.scr0Base else s.scr1Base).toNat } ∧
        t.bankW.bufSize = if pre.length % 2 = 0 then s.scr0Cap else s.scr1Cap

/-- `CONVERT` completes with `DONE` whenever its conditions hold and each scratch buffer holds `4*w*h` bytes and the
requested frame (70_reset_and_hazards.md R214). -/
def Obligations.ConvertCompletes : Prop :=
  ∀ (s : State) (S D : Desc), S = s.bankS.desc → D = s.bankD.desc → s.OperandsSound →
    s.bankS.valid = true → s.bankD.valid = true → (S.fmt = .f400p ↔ D.fmt = .f400p) →
    S.width = D.width → S.height = D.height →
    (S.nbit = 16 → D.nbit = 8 → S.nlsb = 0 ∨ 8 ≤ S.nlsb) → (S.nbit = 8 → D.nbit = 16 → D.nlsb = 0 ∨ 8 ≤ D.nlsb) →
    4 * S.width * S.height ≤ s.scr0Cap.toNat → 4 * S.width * S.height ≤ s.scr1Cap.toNat →
    D.ioSize ≤ s.scr0Cap.toNat → D.ioSize ≤ s.scr1Cap.toNat →
    S.base + S.ioSize ≤ 4294967296 → s.scr0.base + s.scr0.size ≤ 4294967296 →
    s.scr1.base + s.scr1.size ≤ 4294967296 →
    anyOverlap [s.bankS.region, s.scr0, s.scr1] = false →
    ∃ t : State, exec .convert s = .next t ∧ t.status.busy = false ∧ t.status.done = true ∧
      t.status.err = s.status.err ∧ t.bankW.valid = true

/-- 43_orchestrator.md R181: a request equal to the source's layout has the empty plan, so `CONVERT` writes no byte and
makes the source buffer the result. -/
def Obligations.ConvertIdentity : Prop :=
  ∀ (s : State) (S D : Desc), S = s.bankS.desc → D = s.bankD.desc → S.fmt = D.fmt → S.nbit = D.nbit →
    (S.nbit = 16 → (if S.nlsb = 0 then 16 else S.nlsb) = (if D.nlsb = 0 then 16 else D.nlsb)) →
    S.tiled = D.tiled → S.yStride = D.yStride → S.ioSize = D.ioSize →
    (∃ p : Planner, plan S { dst := D, cap0 := s.scr0Cap.toNat, cap1 := s.scr1Cap.toNat } = .ok p ∧ p.steps = []) ∧
    (s.bankS.valid = true → s.bankD.valid = true → S.width = D.width → S.height = D.height →
      exec .convert s = .next { s with
        bankW := s.bankS
        status := { s.status with busy := false, done := true, nsteps := 0#3, stage := 0#4, resbuf := 0#2 } })

/-- 43_orchestrator.md R175, 60_exceptions.md R199: the checks of `CONVERT` in their order, the first that fails being the
error. -/
def Obligations.ConvertCheckOrder : Prop :=
  ∀ (s : State) (S D : Desc), S = s.bankS.desc → D = s.bankD.desc →
    (¬(s.bankS.valid = true ∧ s.bankD.valid = true) → exec .convert s = .next (s.failedWith 7#4 0#4)) ∧
    (s.bankS.valid = true → s.bankD.valid = true →
      (¬(S.fmt = .f400p ↔ D.fmt = .f400p) → exec .convert s = .next (s.failedWith 1#4 0#4)) ∧
      ((S.fmt = .f400p ↔ D.fmt = .f400p) →
        (S.width ≠ D.width ∨ S.height ≠ D.height → exec .convert s = .next (s.failedWith 2#4 0#4)) ∧
        (S.width = D.width → S.height = D.height →
          (∀ c g, plan S { dst := D, cap0 := s.scr0Cap.toNat, cap1 := s.scr1Cap.toNat } = .error (c, g) →
            exec .convert s = .next (s.failedWith c.code g.id)) ∧
          ∀ p, plan S { dst := D, cap0 := s.scr0Cap.toNat, cap1 := s.scr1Cap.toNat } = .ok p → p.steps ≠ [] →
            (4294967296 < S.base + S.ioSize ∨ 4294967296 < s.scr0.base + s.scr0.size ∨
                (2 ≤ p.steps.length ∧ 4294967296 < s.scr1.base + s.scr1.size) →
              exec .convert s = .next (s.failedWith 4#4 0#4)) ∧
            (¬(4294967296 < S.base + S.ioSize ∨ 4294967296 < s.scr0.base + s.scr0.size ∨
                (2 ≤ p.steps.length ∧ 4294967296 < s.scr1.base + s.scr1.size)) →
              s.bankS.region.overlaps s.scr0 = true ∨ (2 ≤ p.steps.length ∧
                (s.bankS.region.overlaps s.scr1 = true ∨ s.scr0.overlaps s.scr1 = true)) →
              exec .convert s = .next (s.failedWith 5#4 0#4)))))

/-- 43_orchestrator.md R173: the stages and primitives of a plan, stage 5 there exactly when the stride or the frame size
reached so far is not the requested one. -/
def Obligations.PlanFollowsStages : Prop :=
  ∀ (s : Desc) (g : PlanGoal) (p : Planner), plan s g = .ok p →
    ∃ (front : List PlanStep) (last : Desc),
      front.map (fun x => (x.stage, x.prim)) = stagesOneToFour s g.dst ∧
      last = (match front.getLast? with
        | some x => x.next
        | none => s) ∧
      (last.yStride = g.dst.yStride ∧ last.ioSize = g.dst.ioSize → p.steps = front) ∧
      (¬(last.yStride = g.dst.yStride ∧ last.ioSize = g.dst.ioSize) →
        ∃ x : PlanStep, p.steps = front ++ [x] ∧ x.stage = .s5 ∧ x.prim = .rectcopy)

/-- 43_orchestrator.md R172: the stage ids of a plan are strictly increasing, so each of 1 to 7 occurs at most once and a
plan has at most seven steps. -/
def Obligations.PlanStagesIncrease : Prop :=
  ∀ (s : Desc) (g : PlanGoal) (p : Planner), plan s g = .ok p →
    (stageIds p.steps).Pairwise (· < ·) ∧ (∀ k ∈ stageIds p.steps, 1 ≤ k ∧ k ≤ 7) ∧ p.steps.length ≤ 7

/-- 43_orchestrator.md R174: for two laid-out descriptors of equal dimensions, neither or both mono, a plan can fail only
with `ALLOC` at a planned stage or with `UNSUP` at stage 2. -/
def Obligations.PlanErrorKinds : Prop :=
  ∀ (s : Desc) (g : PlanGoal) (c : ErrCode) (st : Stage), layout s.toRequest = .ok s.toDerived →
    layout g.dst.toRequest = .ok g.dst.toDerived → s.width = g.dst.width → s.height = g.dst.height →
    (s.fmt = .f400p ↔ g.dst.fmt = .f400p) → plan s g = .error (c, st) →
    (c = .alloc ∧ st ≠ .none) ∨ (c = .unsup ∧ st = .s2)

/-- 43_orchestrator.md R175 phase 2, R176: each step of a conversion has exactly the memory effect its primitive command
has with the working descriptor in bank `S` and the step's output descriptor, in the scratch buffer of its turn, in bank
`D`; the first step starts from the source, every later one from the output of the step before; and the memory `CONVERT`
leaves is the one after the last step. -/
def Obligations.ConvertStepsArePrimitives : Prop :=
  ∀ (s : State) (pre post : List PlanStep) (x : PlanStep) (m : Memory) (cur : Desc), s.OperandsSound →
    convertPlan s = .ok (pre ++ x :: post) → runSteps s 0 s.bankS.desc pre s.mem = (m, cur) →
    (pre = [] → m = s.mem ∧ cur = s.bankS.desc) ∧
    (∀ (before : List PlanStep) (y : PlanStep), pre = before ++ [y] →
      cur = { y.next with base := (if before.length % 2 = 0 then s.scr0Base else s.scr1Base).toNat }) ∧
    (∃ u : State,
      exec x.prim.instr { s with
          bankS := if pre = [] then s.bankS else Bank.ofDesc cur
          bankD := Bank.ofDesc
            { x.next with base := (if pre.length % 2 = 0 then s.scr0Base else s.scr1Base).toNat }
          mem := m } = .next u ∧
      u.status.done = true ∧ u.mem = (runSteps s 0 s.bankS.desc (pre ++ [x]) s.mem).1) ∧
    ∀ t : State, exec .convert s = .next t → t.mem = (runSteps s 0 s.bankS.desc (pre ++ x :: post) s.mem).1

/-- 43_orchestrator.md R180: the result has the requested format, depth, tiling, strides and size. -/
def Obligations.ConvertResultMatchesRequest : Prop :=
  ∀ (s t : State) (steps : List PlanStep), s.OperandsSound → convertPlan s = .ok steps → exec .convert s = .next t →
    t.bankW.width = s.bankD.width ∧ t.bankW.height = s.bankD.height ∧ t.bankW.fmt = s.bankD.fmt ∧
    t.bankW.nbit = s.bankD.nbit ∧ t.bankW.tiled = s.bankD.tiled ∧ t.bankW.yStride = s.bankD.yStride ∧
    t.bankW.uvStride = s.bankD.uvStride ∧ t.bankW.ioSize = s.bankD.ioSize
end

