-- ==== Sys2Proof/Laws/Ops.lean ====
section
/-! SUPPORT. What the shared operations over memory can do, said once: reads after writes, frames of loops, and the
canonical form. -/

namespace Sys2Proof.Machine

/-! ### Loops -/

@[simp] theorem iterate_zero {α : Type} (f : Nat → α → α) (a : α) : iterate 0 f a = a := rfl

theorem iterate_succ {α : Type} (n : Nat) (f : Nat → α → α) (a : α) : iterate (n + 1) f a = f n (iterate n f a) := rfl

/-- A property that every pass keeps is kept by the loop. -/
theorem iterate_keeps {α : Type} {P : α → Prop} {n : Nat} {f : Nat → α → α} {a : α} (h0 : P a)
    (hstep : ∀ k, k < n → ∀ b, P b → P (f k b)) : P (iterate n f a) := by
  induction n with
  | zero => exact h0
  | succ n ih => exact hstep n (Nat.lt_succ_self n) _ (ih fun k hk => hstep k (Nat.lt_succ_of_lt hk))

/-- If only pass `k` establishes a property and every later pass keeps it, the loop establishes it. -/
theorem iterate_establishes {α : Type} {P : α → Prop} {n k : Nat} {f : Nat → α → α} {a : α} (hk : k < n)
    (hset : P (f k (iterate k f a))) (hkeep : ∀ j, k < j → j < n → ∀ b, P b → P (f j b)) : P (iterate n f a) := by
  induction n with
  | zero => exact absurd hk (Nat.not_lt_zero k)
  | succ n ih =>
    rcases Nat.lt_succ_iff_lt_or_eq.mp hk with h | h
    · exact hkeep n h (Nat.lt_succ_self n) _ (ih h fun j h1 h2 => hkeep j h1 (Nat.lt_succ_of_lt h2))
    · subst h
      exact hset

/-! ### One byte -/

@[simp] theorem Memory.read_nil (a : Nat) : Memory.read [] a = Config.initialByte := rfl

theorem Memory.read_put_ne (m : Memory) (a a' : Nat) (b : Byte) (h : a' ≠ a) :
    Memory.read (Memory.put m a b) a' = Memory.read m a' := by
  induction m with
  | nil =>
    simp only [Memory.put]
    split <;> simp [Memory.read, h]
  | cons kc rest ih =>
    obtain ⟨k, c⟩ := kc
    simp only [Memory.put]
    split
    · split <;> simp [Memory.read, h]
    · split
      · rename_i _ hak
        subst hak
        split <;> simp [Memory.read, h]
      · simp only [Memory.read, ih]

theorem Memory.wfFrom_mono {lo lo' : Nat} (h : lo' ≤ lo) {m : Memory} (hm : Memory.wfFrom lo m = true) :
    Memory.wfFrom lo' m = true := by
  cases m with
  | nil => rfl
  | cons kc rest =>
    obtain ⟨k, c⟩ := kc
    simp only [Memory.wfFrom, Bool.and_eq_true, Nat.ble_eq] at hm ⊢
    exact ⟨⟨⟨le_trans h hm.1.1.1, hm.1.1.2⟩, hm.1.2⟩, hm.2⟩

/-- Below the lowest listed address everything reads as the initial byte. -/
theorem Memory.read_below {lo a : Nat} {m : Memory} (hm : Memory.wfFrom lo m = true) (h : a < lo) :
    Memory.read m a = Config.initialByte := by
  induction m generalizing lo with
  | nil => rfl
  | cons kc rest ih =>
    obtain ⟨k, c⟩ := kc
    simp only [Memory.wfFrom, Bool.and_eq_true, Nat.ble_eq] at hm
    have hk : a ≠ k := by omega
    simp only [Memory.read, if_neg hk]
    exact ih hm.2 (by omega)

theorem Memory.read_put_same {lo : Nat} {m : Memory} (hm : Memory.wfFrom lo m = true) (a : Nat) (b : Byte) :
    Memory.read (Memory.put m a b) a = b := by
  induction m generalizing lo with
  | nil =>
    simp only [Memory.put]
    split
    · rename_i hb
      simp [Memory.read, hb]
    · simp [Memory.read]
  | cons kc rest ih =>
    obtain ⟨k, c⟩ := kc
    have hm' := hm
    simp only [Memory.wfFrom, Bool.and_eq_true, Nat.ble_eq] at hm'
    simp only [Memory.put]
    split
    · rename_i hak
      split
      · rename_i hb
        rw [hb]
        have hk : a ≠ k := by omega
        simp only [Memory.read, if_neg hk]
        exact Memory.read_below hm'.2 (by omega)
      · simp [Memory.read]
    · split
      · rename_i _ hak
        subst hak
        split
        · rename_i hb
          rw [hb]
          exact Memory.read_below hm'.2 (by omega)
        · simp [Memory.read]
      · rename_i _ hak
        simp only [Memory.read, if_neg hak]
        exact ih hm'.2

theorem Memory.wfFrom_put {lo : Nat} {m : Memory} (hm : Memory.wfFrom lo m = true) {a : Nat} (hlo : lo ≤ a)
    (ha : a < Config.memSize) (b : Byte) : Memory.wfFrom lo (Memory.put m a b) = true := by
  induction m generalizing lo with
  | nil =>
    simp only [Memory.put]
    split
    · rfl
    · rename_i hb
      simp [Memory.wfFrom, hlo, ha, hb]
  | cons kc rest ih =>
    obtain ⟨k, c⟩ := kc
    have hm' := hm
    simp only [Memory.wfFrom, Bool.and_eq_true, Nat.ble_eq] at hm'
    simp only [Memory.put]
    split
    · rename_i hak
      split
      · exact hm
      · rename_i hb
        simp only [Memory.wfFrom, Bool.and_eq_true, Nat.ble_eq]
        refine ⟨⟨⟨hlo, by simpa using ha⟩, by simpa using hb⟩, ⟨⟨⟨?_, hm'.1.1.2⟩, hm'.1.2⟩, hm'.2⟩⟩
        omega
    · split
      · rename_i _ hak
        subst hak
        split
        · exact Memory.wfFrom_mono (by omega) hm'.2
        · rename_i hb
          simp only [Memory.wfFrom, Bool.and_eq_true, Nat.ble_eq]
          exact ⟨⟨⟨hlo, hm'.1.1.2⟩, by simpa using hb⟩, hm'.2⟩
      · rename_i hak hne
        simp only [Memory.wfFrom, Bool.and_eq_true, Nat.ble_eq]
        exact ⟨hm'.1, ih hm'.2 (by omega)⟩

/-! ### `M[a] <- b` -/

theorem Memory.read_write_ne (m : Memory) {a a' : Nat} (b : Byte) (h : a' ≠ a) :
    Memory.read (Memory.write m a b) a' = Memory.read m a' := by
  simp only [Memory.write]
  split
  · exact Memory.read_put_ne m a a' b h
  · rfl

theorem Memory.read_write_same {m : Memory} (hm : Memory.wf m = true) {a : Nat} (ha : a < Config.memSize) (b : Byte) :
    Memory.read (Memory.write m a b) a = b := by
  simp only [Memory.write, if_pos ha]
  exact Memory.read_put_same hm a b

/-- Every write keeps the canonical form. -/
theorem Memory.wf_write {m : Memory} (hm : Memory.wf m = true) (a : Nat) (b : Byte) :
    Memory.wf (Memory.write m a b) = true := by
  simp only [Memory.write]
  split
  · rename_i ha
    exact Memory.wfFrom_put hm (Nat.zero_le a) ha b
  · exact hm

/-- Past the end of memory nothing is listed. -/
theorem Memory.read_outside {m : Memory} {lo a : Nat} (hm : Memory.wfFrom lo m = true) (h : Config.memSize ≤ a) :
    Memory.read m a = Config.initialByte := by
  induction m generalizing lo with
  | nil => rfl
  | cons kc rest ih =>
    obtain ⟨k, c⟩ := kc
    simp only [Memory.wfFrom, Bool.and_eq_true, Nat.ble_eq, Nat.blt_eq] at hm
    have hk : a ≠ k := by omega
    simp only [Memory.read, if_neg hk]
    exact ih hm.2

/-! ### Loops of writes -/

/-- A loop whose passes leave address `a` alone leaves it alone. -/
theorem iterate_read {n : Nat} {f : Nat → Memory → Memory} {a : Nat}
    (h : ∀ k, k < n → ∀ m, Memory.read (f k m) a = Memory.read m a) (m : Memory) :
    Memory.read (iterate n f m) a = Memory.read m a :=
  iterate_keeps (P := fun m' => Memory.read m' a = Memory.read m a) rfl fun k hk b hb => (h k hk b).trans hb

/-- A loop whose passes keep the canonical form keeps it. -/
theorem iterate_wf {n : Nat} {f : Nat → Memory → Memory}
    (h : ∀ k, k < n → ∀ m, Memory.wf m = true → Memory.wf (f k m) = true) {m : Memory} (hm : Memory.wf m = true) :
    Memory.wf (iterate n f m) = true :=
  iterate_keeps (P := fun m' => Memory.wf m' = true) hm h

theorem Memory.wf_writeLE {m : Memory} (hm : Memory.wf m = true) (addr n v : Nat) :
    Memory.wf (Memory.writeLE m addr n v) = true :=
  iterate_wf (fun _ _ _ hm' => Memory.wf_write hm' _ _) hm

/-- `MemWrite` changes only its `n` bytes. -/
theorem Memory.read_writeLE_outside (m : Memory) {addr n v a : Nat} (h : a < addr ∨ addr + n ≤ a) :
    Memory.read (Memory.writeLE m addr n v) a = Memory.read m a :=
  iterate_read (fun k hk m' => Memory.read_write_ne m' _ (by omega)) m

/-- `MemWrite` puts byte `i` of the value at `addr + i`. -/
theorem Memory.read_writeLE_inside {m : Memory} (hm : Memory.wf m = true) {addr n i : Nat} (v : Nat) (hi : i < n)
    (hfit : addr + n ≤ Config.memSize) :
    Memory.read (Memory.writeLE m addr n v) (addr + i) = BitVec.ofNat 8 (v >>> (8 * i)) := by
  refine iterate_establishes (P := fun m' => Memory.read m' (addr + i) = BitVec.ofNat 8 (v >>> (8 * i))) hi ?_ ?_
  · refine Memory.read_write_same ?_ (by omega) _
    exact iterate_wf (fun _ _ _ hm' => Memory.wf_write hm' _ _) hm
  · intro j hj _ b hb
    rw [Memory.read_write_ne b _ (by omega)]
    exact hb

theorem Memory.wf_copyBytes {m : Memory} (hm : Memory.wf m = true) (dst src n : Nat) :
    Memory.wf (Memory.copyBytes m dst src n) = true :=
  iterate_wf (fun _ _ _ hm' => Memory.wf_write hm' _ _) hm

/-- A byte copy changes only its `n` destination bytes. -/
theorem Memory.read_copyBytes_outside (m : Memory) {dst src n a : Nat} (h : a < dst ∨ dst + n ≤ a) :
    Memory.read (Memory.copyBytes m dst src n) a = Memory.read m a :=
  iterate_read (fun k hk m' => Memory.read_write_ne m' _ (by omega)) m

/-- A byte copy from a disjoint source copies every byte. -/
theorem Memory.read_copyBytes_inside {m : Memory} (hm : Memory.wf m = true) {dst src n k : Nat} (hk : k < n)
    (hfit : dst + n ≤ Config.memSize) (hdis : src + n ≤ dst ∨ dst + n ≤ src) :
    Memory.read (Memory.copyBytes m dst src n) (dst + k) = Memory.read m (src + k) := by
  refine iterate_establishes (P := fun m' => Memory.read m' (dst + k) = Memory.read m (src + k)) hk ?_ ?_
  · have hpre : Memory.wf (iterate k (fun k m' => Memory.write m' (dst + k) (Memory.read m' (src + k))) m) = true :=
      iterate_wf (fun _ _ _ hm' => Memory.wf_write hm' _ _) hm
    have hsrc : Memory.read (iterate k (fun k m' => Memory.write m' (dst + k) (Memory.read m' (src + k))) m) (src + k)
        = Memory.read m (src + k) :=
      iterate_read (fun j hj m' => Memory.read_write_ne m' _ (by omega)) m
    rw [Memory.read_write_same hpre (by omega), hsrc]
  · intro j hj _ b hb
    rw [Memory.read_write_ne b _ (by omega)]
    exact hb

/-- `MemRead` depends only on its `n` bytes. -/
theorem Memory.readLE_congr {m m' : Memory} {addr n : Nat}
    (h : ∀ i, i < n → Memory.read m' (addr + i) = Memory.read m (addr + i)) :
    Memory.readLE m' addr n = Memory.readLE m addr n := by
  induction n with
  | zero => rfl
  | succ n ih =>
    simp only [Memory.readLE]
    rw [ih fun i hi => h i (Nat.lt_succ_of_lt hi), h n (Nat.lt_succ_self n)]

theorem Memory.readLE_lt (m : Memory) (addr n : Nat) : Memory.readLE m addr n < 2 ^ (8 * n) := by
  induction n with
  | zero => simp [Memory.readLE]
  | succ n ih =>
    have hb : (Memory.read m (addr + n)).toNat < 256 := (Memory.read m (addr + n)).isLt
    have hp : (2 : Nat) ^ (8 * (n + 1)) = 2 ^ (8 * n) * 256 := by
      rw [show 8 * (n + 1) = 8 * n + 8 by ring, pow_add]
      norm_num
    simp only [Memory.readLE, hp]
    nlinarith [Nat.mul_le_mul_right (2 ^ (8 * n)) (Nat.le_of_lt_succ (show (Memory.read m (addr + n)).toNat < 255 + 1 from hb))]

end Sys2Proof.Machine
end

