-- ==== Sys2Proof/Laws/State.lean ====
section
/-! SUPPORT. The fields of State after each of its updates, one lemma per field and update. -/

namespace Sys2Proof.Machine

/-! ### `State.complete` -/

@[simp] theorem State.complete_cmd (s : State) : s.complete.cmd = s.cmd := rfl
@[simp] theorem State.complete_status (s : State) : s.complete.status = { s.status with busy := false, done := true } := rfl
@[simp] theorem State.complete_errinfo (s : State) : s.complete.errinfo = s.errinfo := rfl
@[simp] theorem State.complete_irqEn (s : State) : s.complete.irqEn = s.irqEn := rfl
@[simp] theorem State.complete_scr0Base (s : State) : s.complete.scr0Base = s.scr0Base := rfl
@[simp] theorem State.complete_scr0Cap (s : State) : s.complete.scr0Cap = s.scr0Cap := rfl
@[simp] theorem State.complete_scr1Base (s : State) : s.complete.scr1Base = s.scr1Base := rfl
@[simp] theorem State.complete_scr1Cap (s : State) : s.complete.scr1Cap = s.scr1Cap := rfl
@[simp] theorem State.complete_bankS (s : State) : s.complete.bankS = s.bankS := rfl
@[simp] theorem State.complete_bankD (s : State) : s.complete.bankD = s.bankD := rfl
@[simp] theorem State.complete_bankW (s : State) : s.complete.bankW = s.bankW := rfl
@[simp] theorem State.complete_mem (s : State) : s.complete.mem = s.mem := rfl
@[simp] theorem State.complete_owned (s : State) : s.complete.owned = s.owned := rfl
@[simp] theorem State.complete_wait (s : State) : s.complete.wait = s.wait := rfl
@[simp] theorem State.complete_tCmds (s : State) : s.complete.tCmds = s.tCmds := rfl
@[simp] theorem State.complete_inputs (s : State) : s.complete.inputs = s.inputs := rfl
@[simp] theorem State.complete_regData (s : State) : s.complete.regData = s.regData := rfl
@[simp] theorem State.complete_memData (s : State) : s.complete.memData = s.memData := rfl
@[simp] theorem State.complete_epoch (s : State) : s.complete.epoch = s.epoch := rfl

/-! ### `State.raiseError` -/

@[simp] theorem State.raiseError_cmd (s : State) (c : ErrCode) (g : Stage) : (s.raiseError c g).cmd = s.cmd := rfl
@[simp] theorem State.raiseError_status (s : State) (c : ErrCode) (g : Stage) : (s.raiseError c g).status = { s.status with busy := false, done := false, err := true, errcode := c.code, stage := g.id } := rfl
@[simp] theorem State.raiseError_errinfo (s : State) (c : ErrCode) (g : Stage) : (s.raiseError c g).errinfo = { opc := opcField s.cmd, stage := g.id } := rfl
@[simp] theorem State.raiseError_irqEn (s : State) (c : ErrCode) (g : Stage) : (s.raiseError c g).irqEn = s.irqEn := rfl
@[simp] theorem State.raiseError_scr0Base (s : State) (c : ErrCode) (g : Stage) : (s.raiseError c g).scr0Base = s.scr0Base := rfl
@[simp] theorem State.raiseError_scr0Cap (s : State) (c : ErrCode) (g : Stage) : (s.raiseError c g).scr0Cap = s.scr0Cap := rfl
@[simp] theorem State.raiseError_scr1Base (s : State) (c : ErrCode) (g : Stage) : (s.raiseError c g).scr1Base = s.scr1Base := rfl
@[simp] theorem State.raiseError_scr1Cap (s : State) (c : ErrCode) (g : Stage) : (s.raiseError c g).scr1Cap = s.scr1Cap := rfl
@[simp] theorem State.raiseError_bankS (s : State) (c : ErrCode) (g : Stage) : (s.raiseError c g).bankS = s.bankS := rfl
@[simp] theorem State.raiseError_bankD (s : State) (c : ErrCode) (g : Stage) : (s.raiseError c g).bankD = s.bankD := rfl
@[simp] theorem State.raiseError_bankW (s : State) (c : ErrCode) (g : Stage) : (s.raiseError c g).bankW = s.bankW := rfl
@[simp] theorem State.raiseError_mem (s : State) (c : ErrCode) (g : Stage) : (s.raiseError c g).mem = s.mem := rfl
@[simp] theorem State.raiseError_owned (s : State) (c : ErrCode) (g : Stage) : (s.raiseError c g).owned = s.owned := rfl
@[simp] theorem State.raiseError_wait (s : State) (c : ErrCode) (g : Stage) : (s.raiseError c g).wait = s.wait := rfl
@[simp] theorem State.raiseError_tCmds (s : State) (c : ErrCode) (g : Stage) : (s.raiseError c g).tCmds = s.tCmds := rfl
@[simp] theorem State.raiseError_inputs (s : State) (c : ErrCode) (g : Stage) : (s.raiseError c g).inputs = s.inputs := rfl
@[simp] theorem State.raiseError_regData (s : State) (c : ErrCode) (g : Stage) : (s.raiseError c g).regData = s.regData := rfl
@[simp] theorem State.raiseError_memData (s : State) (c : ErrCode) (g : Stage) : (s.raiseError c g).memData = s.memData := rfl
@[simp] theorem State.raiseError_epoch (s : State) (c : ErrCode) (g : Stage) : (s.raiseError c g).epoch = s.epoch := rfl

/-! ### `State.accept` -/

@[simp] theorem State.accept_cmd (s : State) (w : Word) : (s.accept w).cmd = w := rfl
@[simp] theorem State.accept_status (s : State) (w : Word) : (s.accept w).status = { s.status with busy := true, done := false, stage := 0#4, resbuf := 0#2, nsteps := 0#3 } := rfl
@[simp] theorem State.accept_errinfo (s : State) (w : Word) : (s.accept w).errinfo = s.errinfo := rfl
@[simp] theorem State.accept_irqEn (s : State) (w : Word) : (s.accept w).irqEn = s.irqEn := rfl
@[simp] theorem State.accept_scr0Base (s : State) (w : Word) : (s.accept w).scr0Base = s.scr0Base := rfl
@[simp] theorem State.accept_scr0Cap (s : State) (w : Word) : (s.accept w).scr0Cap = s.scr0Cap := rfl
@[simp] theorem State.accept_scr1Base (s : State) (w : Word) : (s.accept w).scr1Base = s.scr1Base := rfl
@[simp] theorem State.accept_scr1Cap (s : State) (w : Word) : (s.accept w).scr1Cap = s.scr1Cap := rfl
@[simp] theorem State.accept_bankS (s : State) (w : Word) : (s.accept w).bankS = s.bankS := rfl
@[simp] theorem State.accept_bankD (s : State) (w : Word) : (s.accept w).bankD = s.bankD := rfl
@[simp] theorem State.accept_bankW (s : State) (w : Word) : (s.accept w).bankW = s.bankW := rfl
@[simp] theorem State.accept_mem (s : State) (w : Word) : (s.accept w).mem = s.mem := rfl
@[simp] theorem State.accept_owned (s : State) (w : Word) : (s.accept w).owned = s.regionsOfWord w ++ s.owned := rfl
@[simp] theorem State.accept_wait (s : State) (w : Word) : (s.accept w).wait = s.tCmds.headD 0 := rfl
@[simp] theorem State.accept_tCmds (s : State) (w : Word) : (s.accept w).tCmds = s.tCmds.tail := rfl
@[simp] theorem State.accept_inputs (s : State) (w : Word) : (s.accept w).inputs = s.inputs := rfl
@[simp] theorem State.accept_regData (s : State) (w : Word) : (s.accept w).regData = s.regData := rfl
@[simp] theorem State.accept_memData (s : State) (w : Word) : (s.accept w).memData = s.memData := rfl
@[simp] theorem State.accept_epoch (s : State) (w : Word) : (s.accept w).epoch = s.epoch := rfl

/-! ### `State.tick` -/

@[simp] theorem State.tick_cmd (s : State) : s.tick.cmd = s.cmd := rfl
@[simp] theorem State.tick_status (s : State) : s.tick.status = s.status := rfl
@[simp] theorem State.tick_errinfo (s : State) : s.tick.errinfo = s.errinfo := rfl
@[simp] theorem State.tick_irqEn (s : State) : s.tick.irqEn = s.irqEn := rfl
@[simp] theorem State.tick_scr0Base (s : State) : s.tick.scr0Base = s.scr0Base := rfl
@[simp] theorem State.tick_scr0Cap (s : State) : s.tick.scr0Cap = s.scr0Cap := rfl
@[simp] theorem State.tick_scr1Base (s : State) : s.tick.scr1Base = s.scr1Base := rfl
@[simp] theorem State.tick_scr1Cap (s : State) : s.tick.scr1Cap = s.scr1Cap := rfl
@[simp] theorem State.tick_bankS (s : State) : s.tick.bankS = s.bankS := rfl
@[simp] theorem State.tick_bankD (s : State) : s.tick.bankD = s.bankD := rfl
@[simp] theorem State.tick_bankW (s : State) : s.tick.bankW = s.bankW := rfl
@[simp] theorem State.tick_mem (s : State) : s.tick.mem = s.mem := rfl
@[simp] theorem State.tick_owned (s : State) : s.tick.owned = s.owned := rfl
@[simp] theorem State.tick_wait (s : State) : s.tick.wait = s.wait - 1 := rfl
@[simp] theorem State.tick_tCmds (s : State) : s.tick.tCmds = s.tCmds := rfl
@[simp] theorem State.tick_inputs (s : State) : s.tick.inputs = s.inputs := rfl
@[simp] theorem State.tick_regData (s : State) : s.tick.regData = s.regData := rfl
@[simp] theorem State.tick_memData (s : State) : s.tick.memData = s.memData := rfl
@[simp] theorem State.tick_epoch (s : State) : s.tick.epoch = s.epoch := rfl

/-! ### `State.withFetchWord` -/

@[simp] theorem State.withFetchWord_cmd (s : State) (nbits w : Nat) : (s.withFetchWord nbits w).cmd = tableWord nbits w := rfl
@[simp] theorem State.withFetchWord_status (s : State) (nbits w : Nat) : (s.withFetchWord nbits w).status = { s.status with busy := true, done := false, stage := 0#4, resbuf := 0#2, nsteps := 0#3 } := rfl
@[simp] theorem State.withFetchWord_errinfo (s : State) (nbits w : Nat) : (s.withFetchWord nbits w).errinfo = s.errinfo := rfl
@[simp] theorem State.withFetchWord_irqEn (s : State) (nbits w : Nat) : (s.withFetchWord nbits w).irqEn = s.irqEn := rfl
@[simp] theorem State.withFetchWord_scr0Base (s : State) (nbits w : Nat) : (s.withFetchWord nbits w).scr0Base = s.scr0Base := rfl
@[simp] theorem State.withFetchWord_scr0Cap (s : State) (nbits w : Nat) : (s.withFetchWord nbits w).scr0Cap = s.scr0Cap := rfl
@[simp] theorem State.withFetchWord_scr1Base (s : State) (nbits w : Nat) : (s.withFetchWord nbits w).scr1Base = s.scr1Base := rfl
@[simp] theorem State.withFetchWord_scr1Cap (s : State) (nbits w : Nat) : (s.withFetchWord nbits w).scr1Cap = s.scr1Cap := rfl
@[simp] theorem State.withFetchWord_bankS (s : State) (nbits w : Nat) : (s.withFetchWord nbits w).bankS = s.bankS := rfl
@[simp] theorem State.withFetchWord_bankD (s : State) (nbits w : Nat) : (s.withFetchWord nbits w).bankD = s.bankD := rfl
@[simp] theorem State.withFetchWord_bankW (s : State) (nbits w : Nat) : (s.withFetchWord nbits w).bankW = s.bankW := rfl
@[simp] theorem State.withFetchWord_mem (s : State) (nbits w : Nat) : (s.withFetchWord nbits w).mem = s.mem := rfl
@[simp] theorem State.withFetchWord_owned (s : State) (nbits w : Nat) : (s.withFetchWord nbits w).owned = s.owned := rfl
@[simp] theorem State.withFetchWord_wait (s : State) (nbits w : Nat) : (s.withFetchWord nbits w).wait = 0 := rfl
@[simp] theorem State.withFetchWord_tCmds (s : State) (nbits w : Nat) : (s.withFetchWord nbits w).tCmds = s.tCmds := rfl
@[simp] theorem State.withFetchWord_inputs (s : State) (nbits w : Nat) : (s.withFetchWord nbits w).inputs = s.inputs := rfl
@[simp] theorem State.withFetchWord_regData (s : State) (nbits w : Nat) : (s.withFetchWord nbits w).regData = s.regData := rfl
@[simp] theorem State.withFetchWord_memData (s : State) (nbits w : Nat) : (s.withFetchWord nbits w).memData = s.memData := rfl
@[simp] theorem State.withFetchWord_epoch (s : State) (nbits w : Nat) : (s.withFetchWord nbits w).epoch = s.epoch := rfl

/-! ### `State.writeStatus` -/

@[simp] theorem State.writeStatus_cmd (s : State) (v : Word) : (s.writeStatus v).cmd = s.cmd := rfl
@[simp] theorem State.writeStatus_irqEn (s : State) (v : Word) : (s.writeStatus v).irqEn = s.irqEn := rfl
@[simp] theorem State.writeStatus_scr0Base (s : State) (v : Word) : (s.writeStatus v).scr0Base = s.scr0Base := rfl
@[simp] theorem State.writeStatus_scr0Cap (s : State) (v : Word) : (s.writeStatus v).scr0Cap = s.scr0Cap := rfl
@[simp] theorem State.writeStatus_scr1Base (s : State) (v : Word) : (s.writeStatus v).scr1Base = s.scr1Base := rfl
@[simp] theorem State.writeStatus_scr1Cap (s : State) (v : Word) : (s.writeStatus v).scr1Cap = s.scr1Cap := rfl
@[simp] theorem State.writeStatus_bankS (s : State) (v : Word) : (s.writeStatus v).bankS = s.bankS := rfl
@[simp] theorem State.writeStatus_bankD (s : State) (v : Word) : (s.writeStatus v).bankD = s.bankD := rfl
@[simp] theorem State.writeStatus_bankW (s : State) (v : Word) : (s.writeStatus v).bankW = s.bankW := rfl
@[simp] theorem State.writeStatus_mem (s : State) (v : Word) : (s.writeStatus v).mem = s.mem := rfl
@[simp] theorem State.writeStatus_owned (s : State) (v : Word) : (s.writeStatus v).owned = s.owned := rfl
@[simp] theorem State.writeStatus_wait (s : State) (v : Word) : (s.writeStatus v).wait = s.wait := rfl
@[simp] theorem State.writeStatus_tCmds (s : State) (v : Word) : (s.writeStatus v).tCmds = s.tCmds := rfl
@[simp] theorem State.writeStatus_inputs (s : State) (v : Word) : (s.writeStatus v).inputs = s.inputs := rfl
@[simp] theorem State.writeStatus_regData (s : State) (v : Word) : (s.writeStatus v).regData = s.regData := rfl
@[simp] theorem State.writeStatus_memData (s : State) (v : Word) : (s.writeStatus v).memData = s.memData := rfl
@[simp] theorem State.writeStatus_epoch (s : State) (v : Word) : (s.writeStatus v).epoch = s.epoch := rfl

/-! ### `State.convertResult` -/

@[simp] theorem State.convertResult_cmd (s : State) (steps : List PlanStep) (out : Memory × Desc) : (s.convertResult steps out).cmd = s.cmd := rfl
@[simp] theorem State.convertResult_status (s : State) (steps : List PlanStep) (out : Memory × Desc) : (s.convertResult steps out).status = { s.status with nsteps := BitVec.ofNat 3 steps.length, stage := (lastStage steps).id, resbuf := resultBuffer steps.length } := rfl
@[simp] theorem State.convertResult_errinfo (s : State) (steps : List PlanStep) (out : Memory × Desc) : (s.convertResult steps out).errinfo = s.errinfo := rfl
@[simp] theorem State.convertResult_irqEn (s : State) (steps : List PlanStep) (out : Memory × Desc) : (s.convertResult steps out).irqEn = s.irqEn := rfl
@[simp] theorem State.convertResult_scr0Base (s : State) (steps : List PlanStep) (out : Memory × Desc) : (s.convertResult steps out).scr0Base = s.scr0Base := rfl
@[simp] theorem State.convertResult_scr0Cap (s : State) (steps : List PlanStep) (out : Memory × Desc) : (s.convertResult steps out).scr0Cap = s.scr0Cap := rfl
@[simp] theorem State.convertResult_scr1Base (s : State) (steps : List PlanStep) (out : Memory × Desc) : (s.convertResult steps out).scr1Base = s.scr1Base := rfl
@[simp] theorem State.convertResult_scr1Cap (s : State) (steps : List PlanStep) (out : Memory × Desc) : (s.convertResult steps out).scr1Cap = s.scr1Cap := rfl
@[simp] theorem State.convertResult_bankS (s : State) (steps : List PlanStep) (out : Memory × Desc) : (s.convertResult steps out).bankS = s.bankS := rfl
@[simp] theorem State.convertResult_bankD (s : State) (steps : List PlanStep) (out : Memory × Desc) : (s.convertResult steps out).bankD = s.bankD := rfl
@[simp] theorem State.convertResult_bankW (s : State) (steps : List PlanStep) (out : Memory × Desc) : (s.convertResult steps out).bankW = if steps.length = 0 then s.bankS else Bank.ofDesc out.2 := rfl
@[simp] theorem State.convertResult_mem (s : State) (steps : List PlanStep) (out : Memory × Desc) : (s.convertResult steps out).mem = out.1 := rfl
@[simp] theorem State.convertResult_owned (s : State) (steps : List PlanStep) (out : Memory × Desc) : (s.convertResult steps out).owned = s.owned := rfl
@[simp] theorem State.convertResult_wait (s : State) (steps : List PlanStep) (out : Memory × Desc) : (s.convertResult steps out).wait = s.wait := rfl
@[simp] theorem State.convertResult_tCmds (s : State) (steps : List PlanStep) (out : Memory × Desc) : (s.convertResult steps out).tCmds = s.tCmds := rfl
@[simp] theorem State.convertResult_inputs (s : State) (steps : List PlanStep) (out : Memory × Desc) : (s.convertResult steps out).inputs = s.inputs := rfl
@[simp] theorem State.convertResult_regData (s : State) (steps : List PlanStep) (out : Memory × Desc) : (s.convertResult steps out).regData = s.regData := rfl
@[simp] theorem State.convertResult_memData (s : State) (steps : List PlanStep) (out : Memory × Desc) : (s.convertResult steps out).memData = s.memData := rfl
@[simp] theorem State.convertResult_epoch (s : State) (steps : List PlanStep) (out : Memory × Desc) : (s.convertResult steps out).epoch = s.epoch := rfl

/-! ### Updates that may leave the state alone -/

@[simp] theorem State.acquireOnIrq_of_irq {s : State} (h : s.irq = true) : s.acquireOnIrq = { s with owned := [] } := by
  simp [State.acquireOnIrq, h]

@[simp] theorem State.acquireOnIrq_of_quiet {s : State} (h : s.irq = false) : s.acquireOnIrq = s := by
  simp [State.acquireOnIrq, h]

/-- Seeing the interrupt changes nothing but who owns the engine's regions. -/
theorem State.acquireOnIrq_eq (s : State) : s.acquireOnIrq = { s with owned := s.acquireOnIrq.owned } := by
  unfold State.acquireOnIrq
  split <;> rfl

/-- A register read changes nothing but the value returned and who owns the engine's regions. -/
theorem State.readReg_eq (s : State) (r : Reg) :
    s.readReg r = { s with regData := s.regValue r, owned := (s.readReg r).owned } := by
  unfold State.readReg State.acquireOnRead
  split <;> rfl

/-! ### The reset state -/

@[simp] theorem State.reset_mem : State.reset.mem = [] := rfl
@[simp] theorem State.reset_status : State.reset.status = Status.reset := rfl
@[simp] theorem State.reset_bankS : State.reset.bankS = Bank.reset := rfl
@[simp] theorem State.reset_bankD : State.reset.bankD = Bank.reset := rfl
@[simp] theorem State.reset_bankW : State.reset.bankW = Bank.reset := rfl

end Sys2Proof.Machine
end

