-- ==== Sys2Proof/Laws/Commands.lean ====
section
/-! SUPPORT. What the layout function, the shared run of the primitives, `CONVERT` and `exec` can answer, said once. -/

namespace Sys2Proof.Machine

/-- If `layout` succeeds, its checks passed, the frame fits the capacity, and the result is the derived fields. -/
theorem layout_ok {r : Request} {d : Derived} (h : layout r = .ok d) :
    layoutCheck r = none ∧ r.frameSize ≤ r.bufSize ∧ d = r.derive := by
  unfold layout at h
  split at h
  · cases h
  · rename_i hc
    split at h
    · cases h
    · rename_i hs
      cases h
      exact ⟨hc, Nat.le_of_not_lt hs, rfl⟩

theorem layout_of_checks {r : Request} (hc : layoutCheck r = none) (hs : r.frameSize ≤ r.bufSize) :
    layout r = .ok r.derive := by
  unfold layout
  rw [hc]
  simp only
  rw [if_neg (Nat.not_lt.mpr hs)]

/-- What the ten checks leave of a request. -/
theorem layoutCheck_none {r : Request} (h : layoutCheck r = none) :
    r.fmt.isSupported = true ∧ (r.nbit = 8 ∨ r.nbit = 10 ∨ r.nbit = 16) ∧ r.nlsb ≤ r.nbit ∧
      ¬(r.tiled = true ∧ r.nbit = 16) ∧ ¬(r.tiled = true ∧ r.fmt.isPacked = true) ∧ r.width ≠ 0 ∧ r.height ≠ 0 ∧
      (r.fmt.isMono = false → r.width % 2 = 0) ∧ (r.fmt.is420 = true → r.height % 2 = 0) ∧
      (r.tiled = true → r.geometryLegal = true) := by
  unfold layoutCheck at h
  repeat' split at h
  all_goals cases h
  rename_i h1 h2 h3 h4 h5 h6 h7 h8 h9 h10
  simp only [Bool.not_eq_true, Bool.not_eq_true', not_and, not_or] at *
  refine ⟨by simpa using h1, by omega, by omega, by tauto, by tauto, h6.1, h6.2, ?_, ?_, ?_⟩
  · intro hm
    have := h7 hm
    omega
  · intro h4
    have := h8 h4
    omega
  · intro ht
    simpa using h10 ht

/-- A sound bank with `VALID = 1` is the layout of its request. -/
theorem Bank.sound_layout {b : Bank} (h : b.sound = true) (hv : b.valid = true) : layout b.request = .ok b.derived := by
  unfold Bank.sound at h
  rw [hv] at h
  simp only [Bool.not_true, Bool.false_or] at h
  split at h
  · rename_i r hr
    rw [hr, beq_iff_eq.mp h]
  · cases h

theorem Bank.sound_of_layout {b : Bank} (h : layout b.request = .ok b.derived) : b.sound = true := by
  unfold Bank.sound
  rw [h]
  simp

theorem Bank.sound_of_invalid {b : Bank} (h : b.valid = false) : b.sound = true := by
  simp [Bank.sound, h]

/-- Everything a primitive command can answer. -/
theorem runPrimitive_cases (p : Primitive) (s : State) :
    (¬(s.bankS.valid = true ∧ s.bankD.valid = true) ∧ runPrimitive p s = .next (s.raiseError .nolayout .none)) ∨
    (∃ c, s.bankS.valid = true ∧ s.bankD.valid = true ∧ checkPrimitive p s.bankS.desc s.bankD.desc = some c ∧
      runPrimitive p s = .next (s.raiseError c .none)) ∨
    (s.bankS.valid = true ∧ s.bankD.valid = true ∧ checkPrimitive p s.bankS.desc s.bankD.desc = none ∧
      s.bankS.desc.inMemory = true ∧ s.bankD.desc.inMemory = true ∧
      runPrimitive p s = .next (s.doneWith (p.body s.bankS.desc s.bankD.desc s.mem))) ∨
    (s.bankS.valid = true ∧ s.bankD.valid = true ∧ checkPrimitive p s.bankS.desc s.bankD.desc = none ∧
      ¬(s.bankS.desc.inMemory = true ∧ s.bankD.desc.inMemory = true) ∧
      runPrimitive p s = .fault .addressOutsideMemory) := by
  unfold runPrimitive
  by_cases hv : s.bankS.valid = true ∧ s.bankD.valid = true
  · simp only [hv.1, hv.2, Bool.and_self, Bool.not_true, Bool.false_eq_true, if_false]
    rcases hc : checkPrimitive p s.bankS.desc s.bankD.desc with _ | c
    · by_cases hm : s.bankS.desc.inMemory = true ∧ s.bankD.desc.inMemory = true
      · right; right; left
        exact ⟨trivial, trivial, rfl, hm.1, hm.2, by simp [hm.1, hm.2, State.complete]⟩
      · right; right; right
        refine ⟨trivial, trivial, rfl, hm, ?_⟩
        have : (s.bankS.desc.inMemory && s.bankD.desc.inMemory) = false := by
          simpa [Bool.and_eq_true] using hm
        simp [this]
    · right; left
      exact ⟨c, trivial, trivial, rfl, rfl⟩
  · left
    refine ⟨hv, ?_⟩
    have : (s.bankS.valid && s.bankD.valid) = false := by
      simpa [Bool.and_eq_true] using hv
    simp [this]

/-- If a primitive's four checks pass, it is admissible, the shapes agree, both regions lie in memory, and they do not
overlap. -/
theorem checkPrimitive_none {p : Primitive} {s d : Desc} (h : checkPrimitive p s d = none) :
    p.admissible s d = true ∧ s.width = d.width ∧ s.height = d.height ∧ (p.equalDepth = true → s.nbit = d.nbit) ∧
      s.region.inMemory = true ∧ d.region.inMemory = true ∧ s.region.overlaps d.region = false := by
  unfold checkPrimitive at h
  repeat' split at h
  all_goals cases h
  rename_i h1 h2 h3 h4
  simp only [Bool.not_eq_true, Bool.not_eq_true', not_or, not_and, not_not, Bool.or_eq_true] at h1 h2 h3 h4
  exact ⟨by simpa using h1, h2.1, h2.2.1, h2.2.2, by simpa using h3.1, by simpa using h3.2, h4⟩

/-- Everything `CONVERT` can answer. -/
theorem execConvert_cases (s : State) :
    (∃ c g, convertPlan s = .error (c, g) ∧ execConvert s = .next (s.raiseError c g)) ∨
    (∃ steps, convertPlan s = .ok steps ∧ (steps.length = 0 ∨ s.bankS.desc.inMemory = true) ∧
      execConvert s = .next (State.complete (s.convertResult steps (runSteps s 0 s.bankS.desc steps s.mem)))) ∨
    (∃ steps, convertPlan s = .ok steps ∧ ¬(steps.length = 0 ∨ s.bankS.desc.inMemory = true) ∧
      execConvert s = .fault .addressOutsideMemory) := by
  unfold execConvert
  rcases hp : convertPlan s with ⟨c, g⟩ | steps
  · left
    exact ⟨c, g, rfl, rfl⟩
  · right
    by_cases hm : steps.length = 0 ∨ s.bankS.desc.inMemory = true
    · left
      exact ⟨steps, rfl, hm, by simp only [if_pos hm]⟩
    · right
      exact ⟨steps, rfl, hm, by simp only [if_neg hm]⟩

/-- A primitive's command is the run of that primitive. -/
theorem exec_prim (p : Prim) (s : State) : exec p.instr s = runPrimitive p.primitive s := by
  cases p <;> rfl

/-- What a step is: the running command, or the next transaction. -/
theorem step_running {s : State} (hb : s.status.busy = true) (hw : s.wait = 0) : step s = runCommand s := by
  simp [step, hb, hw]

theorem step_serving {s : State} (h : ¬(s.status.busy = true ∧ s.wait = 0)) : step s = serveNext s := by
  simp [step, h]

/-- Everything serving the next transaction can answer. -/
theorem serveNext_cons {s : State} {i : Input} {rest : List Input} (h : s.inputs = i :: rest) :
    serveNext s = State.serve { s.tick.acquireOnIrq with inputs := rest } i := by
  simp [serveNext, h]

theorem serveNext_nil {s : State} (h : s.inputs = []) : serveNext s = .next s.tick := by
  simp [serveNext, h]

/-- A step that serves a transaction, said once: the interrupt line gives the engine's regions back, one step of time
passes, and the transaction is served (log 6). -/
theorem step_serve {s : State} {i : Input} {rest : List Input} (h : ¬(s.status.busy = true ∧ s.wait = 0))
    (hi : s.inputs = i :: rest) :
    step s = State.serve
      { s with owned := if s.irq = true then [] else s.owned, wait := s.wait - 1, inputs := rest } i := by
  rw [step_serving h, serveNext_cons hi]
  congr 1
  have hq : State.irq { s with wait := s.wait - 1 } = s.irq := rfl
  simp only [State.tick, State.acquireOnIrq, hq]
  split <;> rfl

/-- A transaction at an offset of the register map reaches the register the map names (10_state.md R21, R30). -/
theorem Reg.ofAccess_of_registerMap {off : Nat} {r : Reg} (h : (off, r) ∈ registerMap) :
    Reg.ofAccess off 32 = some r := by
  have key : registerMap.all (fun x => Reg.ofAccess x.1 32 == some x.2) = true := by decide
  simpa using List.all_eq_true.mp key _ h

/-- Running two lists of steps one after the other (43_orchestrator.md R175 phase 2). -/
theorem runSteps_append (st : State) (k : Nat) (cur : Desc) (l l' : List PlanStep) (m : Memory) :
    runSteps st k cur (l ++ l') m =
      runSteps st (k + l.length) (runSteps st k cur l m).2 l' (runSteps st k cur l m).1 := by
  induction l generalizing k cur m with
  | nil => rfl
  | cons x rest ih =>
    simp only [List.cons_append, runSteps, ih, List.length_cons]
    rw [show k + 1 + rest.length = k + (rest.length + 1) by omega]

/-- Appending a step to a plan: an error of the layout carries the stage; success appends one step, laid out against the
capacity of the scratch buffer it writes. -/
theorem addStep_ok {p q : Planner} {g : PlanGoal} {stage : Stage} {op : Prim} {r : Request}
    (h : p.addStep g stage op r = .ok q) :
    ∃ der, layout { r with bufSize := p.capacity g } = .ok der ∧
      q.cur = { toRequest := { r with bufSize := p.capacity g }, toDerived := der, base := 0 } ∧
      q.steps = p.steps ++ [{ stage := stage, prim := op, next := q.cur }] := by
  unfold Planner.addStep at h
  split at h
  · cases h
  · rename_i der hl
    cases h
    exact ⟨der, hl, rfl, rfl⟩

theorem addStep_error {p : Planner} {g : PlanGoal} {stage : Stage} {op : Prim} {r : Request} {e : ErrCode × Stage}
    (h : p.addStep g stage op r = .error e) : layout { r with bufSize := p.capacity g } = .error e.1 ∧ e.2 = stage := by
  unfold Planner.addStep at h
  split at h
  · rename_i c hl
    cases h
    exact ⟨hl, rfl⟩
  · cases h

end Sys2Proof.Machine
end

