-- ==== Sys2Proof/Laws/PerInstr.lean ====
section
/-! SUPPORT. Facts about each command as syntax, one lemma a constructor. -/

namespace Sys2Proof.Laws

/-- A command is well formed, and its word is its opcode with `RSV = 0` (30_encoding.md R80). -/
abbrev EncodedWord.Statement (i : Instr) : Prop :=
  i.wf = true ∧ rsvField (encode i) = 0#24 ∧ opcField (encode i) = opcodeOf i

theorem EncodedWord.nop : EncodedWord.Statement .nop := by decide
theorem EncodedWord.layoutS : EncodedWord.Statement .layoutS := by decide
theorem EncodedWord.layoutD : EncodedWord.Statement .layoutD := by decide
theorem EncodedWord.copylayout : EncodedWord.Statement .copylayout := by decide
theorem EncodedWord.unpack10 : EncodedWord.Statement .unpack10 := by decide
theorem EncodedWord.pack10 : EncodedWord.Statement .pack10 := by decide
theorem EncodedWord.narrow : EncodedWord.Statement .narrow := by decide
theorem EncodedWord.widen : EncodedWord.Statement .widen := by decide
theorem EncodedWord.rescale16 : EncodedWord.Statement .rescale16 := by decide
theorem EncodedWord.untile8 : EncodedWord.Statement .untile8 := by decide
theorem EncodedWord.tile8 : EncodedWord.Statement .tile8 := by decide
theorem EncodedWord.sp2p : EncodedWord.Statement .sp2p := by decide
theorem EncodedWord.p2sp : EncodedWord.Statement .p2sp := by decide
theorem EncodedWord.pk2p : EncodedWord.Statement .pk2p := by decide
theorem EncodedWord.p2pk : EncodedWord.Statement .p2pk := by decide
theorem EncodedWord.resample : EncodedWord.Statement .resample := by decide
theorem EncodedWord.rectcopy : EncodedWord.Statement .rectcopy := by decide
theorem EncodedWord.convert : EncodedWord.Statement .convert := by decide

end Sys2Proof.Laws
end

