-- ==== Sys2Proof/Tests/Slice0.lean ====
section
/-! SUPPORT. The model's own tests: well-formedness, decoding, vectors of 95_test_vectors.md (one step each), and for
every obligation with hypotheses a state and operands that meet them. -/

namespace Sys2Proof.Tests

open Sys2Proof Sys2Proof.Machine Host

set_option maxRecDepth 100000

/-! ### Helpers -/

/-- A bank as the host programs it, with the legal tile geometry of its depth when tiled. -/
def bank (w h f n l : Nat) (t : Bool) (rs ri cap base : Nat) : Bank :=
  { Bank.reset with
    width := BitVec.ofNat 16 w
    height := BitVec.ofNat 16 h
    fmt := BitVec.ofNat 4 f
    tiled := t
    nbit := BitVec.ofNat 5 n
    nlsb := BitVec.ofNat 5 l
    tw := if t then (if n = 8 then 8#8 else 3#8) else 0#8
    th := if t then 4#8 else 0#8
    tsz := if t then (if n = 8 then 32#16 else 16#16) else 0#16
    reqStride := BitVec.ofNat 32 rs
    reqIosize := BitVec.ofNat 32 ri
    bufSize := BitVec.ofNat 32 cap
    base := BitVec.ofNat 32 base }

/-- The bank after its `LAYOUT` command. -/
def laid (b : Bank) : Bank :=
  match layout b.request with
  | .ok r => b.setLayout r
  | .error _ => b

/-- A raster bank without requests, laid out. -/
def raster (w h f n l cap base : Nat) : Bank := laid (bank w h f n l false 0 0 cap base)

/-- A tiled bank without requests, laid out. -/
def tiledBank (w h f n l cap base : Nat) : Bank := laid (bank w h f n l true 0 0 cap base)

/-- Memory with bytes `bs` from address `a` on. -/
def bytesAt (a : Nat) (bs : List Nat) : Memory :=
  match bs with
  | [] => []
  | b :: r => if b = 0 then bytesAt (a + 1) r else (a, BitVec.ofNat 8 b) :: bytesAt (a + 1) r

/-- `n` bytes from address `a` on. -/
def readBytes (m : Memory) (a n : Nat) : List Nat :=
  match n with
  | 0 => []
  | k + 1 => (Memory.read m a).toNat :: readBytes m (a + 1) k

/-- Command word `w` running, its time over, with banks `s`, `d` and memory `m`. -/
def running (w : Word) (s d : Bank) (m : Memory) : State :=
  { State.reset with
    cmd := w
    status := { Status.reset with busy := true }
    bankS := s
    bankD := d
    mem := m }

/-- The outcome is a next state with the property. -/
def after (o : Outcome State Fault Refusal) (p : State → Bool) : Bool :=
  match o with
  | .next t => p t
  | _ => false

/-- The next state of an outcome. -/
def nextOf (o : Outcome State Fault Refusal) : State :=
  match o with
  | .next t => t
  | _ => State.reset

theorem next_of {o : Outcome State Fault Refusal} (h : after o (fun _ => true) = true) : o = .next (nextOf o) := by
  cases o with
  | next t => rfl
  | fault r => exact absurd h Bool.false_ne_true
  | refused r => exact absurd h Bool.false_ne_true

/-- One step leaves these bytes from `0x2000` on and this `STATUS`. -/
def leaves (s : State) (bs : List Nat) (st : Word) : Bool :=
  after (step s) fun t => readBytes t.mem 0x2000 bs.length == bs && t.status.word == st

/-- Banks `S` and `D` of two given banks, nothing running, memory empty. -/
def pairBanks (s d : Bank) : State := { State.reset with bankS := s, bankD := d }

/-- Raster frames 4 by 2 of two formats at one depth, apart from each other. -/
def pairOf (f g n : Nat) : State := pairBanks (raster 4 2 f n 0 0x40 0x1000) (raster 4 2 g n 0 0x40 0x2000)

/-- The state after a completed command, with one transaction to come. -/
def idleDone (i : Input) : State :=
  { State.reset with
    status := { Status.reset with done := true }
    inputs := [i] }

/-! ### Well-formedness: what the checks refuse -/

theorem test_wf_misaligned : offsetAligned 0x0FE = false ∧ (Input.regRead 0x0FE 32).wf = false := by decide
theorem test_wf_past_map : offsetInMap 0x100 = false ∧ (Input.regWrite 0x100 32 0#32).wf = false := by decide
theorem test_wf_narrow : widthIs32 16 = false ∧ (Input.regRead 0x008 16).wf = false := by decide
theorem test_wf_accepts : (Input.regRead 0x0FC 32).wf = true ∧ (Input.regWrite 0x000 32 1#32).wf = true := by decide

/-! ### Decoding: the words of 30_encoding.md R81 -/

theorem test_decode_nop : decode 0b00000000000000000000000000000000#32 = .ok .nop := by decide
theorem test_decode_layoutS : decode 0b00000000000000000000000000000001#32 = .ok .layoutS := by decide
theorem test_decode_layoutD : decode 0b00000000000000000000000000000010#32 = .ok .layoutD := by decide
theorem test_decode_copylayout : decode 0b00000000000000000000000000000011#32 = .ok .copylayout := by decide
theorem test_decode_unpack10 : decode 0b00000000000000000000000000010000#32 = .ok .unpack10 := by decide
theorem test_decode_pack10 : decode 0b00000000000000000000000000010001#32 = .ok .pack10 := by decide
theorem test_decode_narrow : decode 0b00000000000000000000000000010010#32 = .ok .narrow := by decide
theorem test_decode_widen : decode 0b00000000000000000000000000010011#32 = .ok .widen := by decide
theorem test_decode_rescale16 : decode 0b00000000000000000000000000010100#32 = .ok .rescale16 := by decide
theorem test_decode_untile8 : decode 0b00000000000000000000000000100000#32 = .ok .untile8 := by decide
theorem test_decode_tile8 : decode 0b00000000000000000000000000100001#32 = .ok .tile8 := by decide
theorem test_decode_sp2p : decode 0b00000000000000000000000000100010#32 = .ok .sp2p := by decide
theorem test_decode_p2sp : decode 0b00000000000000000000000000100011#32 = .ok .p2sp := by decide
theorem test_decode_pk2p : decode 0b00000000000000000000000000100100#32 = .ok .pk2p := by decide
theorem test_decode_p2pk : decode 0b00000000000000000000000000100101#32 = .ok .p2pk := by decide
theorem test_decode_resample : decode 0b00000000000000000000000000100110#32 = .ok .resample := by decide
theorem test_decode_rectcopy : decode 0b00000000000000000000000000100111#32 = .ok .rectcopy := by decide
theorem test_decode_convert : decode 0b00000000000000000000000000110000#32 = .ok .convert := by decide
theorem test_decode_illegal :
    decode 0x00000004#32 = .error .unlistedOpcode ∧ decode 0x00000100#32 = .error .reservedBits ∧
      decode 0x00010030#32 = .error .reservedBits ∧ decode 0xFFFFFFFF#32 = .error .reservedBits := by decide

/-! ### Layout (95_test_vectors.md V-L1, V-L2) -/

theorem test_layoutS_planar420 :
    after (step (running 1#32 (bank 176 144 1 8 0 false 192 0 0xFFFFFFFF 0) Bank.reset []))
      (fun t => t.bankS.derived == ⟨192, 96, 27648, 6912, 41472⟩ && t.bankS.valid && t.status.word == 2#32) = true := by
  decide

theorem test_layoutS_capacity :
    after (step (running 1#32 (bank 16 16 1 8 0 false 0 0 383 0) Bank.reset []))
      (fun t => t.status.word == 0x44#32 && t.errinfo.word == 1#32 && !t.bankS.valid) = true := by decide

theorem test_layoutD_tiled :
    after (step (running 2#32 Bank.reset (bank 20 6 4 8 0 true 0 0 0xFFFFFFFF 0) []))
      (fun t => t.bankD.derived == ⟨96, 64, 192, 128, 448⟩ && t.status.word == 2#32) = true := by decide

theorem test_layoutD_unsupported_first :
    after (step (running 2#32 Bank.reset (bank 0 16 9 8 0 false 0 0 0xFFFFFFFF 0) []))
      (fun t => t.status.word == 0x14#32 && t.errinfo.word == 2#32) = true := by decide

theorem test_copylayout_own_capacity :
    after (step (running 3#32 (bank 4 2 1 8 0 false 6 24 0 0x1000) (bank 9 9 9 9 9 false 9 9 24 0x2000) []))
      (fun t => t.bankD.derived == ⟨6, 3, 12, 3, 24⟩ && t.bankD.base == 0x2000#32 && t.bankD.bufSize == 24#32 &&
        t.status.word == 2#32) = true := by decide

theorem test_nop_completes :
    after (step (running 0#32 Bank.reset Bank.reset [])) (fun t => t.status.word == 2#32 && t.errinfo.word == 0#32) =
      true := by decide

/-! ### The register port (95_test_vectors.md V-S2, V-S4, V-S5) -/

theorem test_port_done_cleared_by_one :
    (after (step (idleDone (.regWrite 0x008 32 2#32))) fun t => t.status.word == 0#32) = true ∧
      (after (step (idleDone (.regWrite 0x008 32 0xFFFFFFF9#32))) fun t => t.status.word == 2#32) = true := by decide

theorem test_port_ownership :
    (after (step { pairOf 1 2 8 with inputs := [.regWrite 0x004 32 0x23#32] }) fun t =>
      t.owned == [⟨0x1000, 12⟩, ⟨0x2000, 12⟩] && t.status.word == 1#32) = true ∧
    (after (step { idleDone (.regRead 0x008 32) with owned := [⟨0x1000, 12⟩] }) fun t =>
      t.owned == [] && t.regData == 2#32) = true := by decide

/-! ### Codec (95_test_vectors.md V-C1 to V-C11) -/

theorem test_unpack10_row :
    leaves (running 0x10#32 (raster 4 1 0 10 0 0x40 0x1000) (raster 4 1 0 16 10 0x40 0x2000)
        (bytesAt 0x1000 [0xFF, 0x03, 0x50, 0x95, 0xAA] ++ bytesAt 0x2008 [0xEE]))
      [0xFF, 0x03, 0x00, 0x00, 0x55, 0x01, 0xAA, 0x02, 0xEE] 2#32 = true := by decide

theorem test_unpack10_ignores_pad_bits :
    leaves (running 0x10#32 (raster 3 1 0 10 0 0x40 0x1000) (raster 3 1 0 16 10 0x40 0x2000)
        (bytesAt 0x1000 [0x01, 0xFC, 0x0F, 0xE0]))
      [0x01, 0x00, 0xFF, 0x03, 0x00, 0x02] 2#32 = true := by decide

theorem test_pack10_row :
    leaves (running 0x11#32 (raster 5 1 0 16 10 0x40 0x1000) (raster 5 1 0 10 0 0x40 0x2000)
        (bytesAt 0x1000 [0x00, 0x02, 0x00, 0x01, 0x80, 0x00, 0x40, 0x00, 0x20, 0xFC] ++
          bytesAt 0x2000 [0xEE, 0xEE, 0xEE, 0xEE, 0xEE, 0xEE, 0xEE, 0xEE]))
      [0x00, 0x02, 0x04, 0x08, 0x10, 0x20, 0x00, 0xEE] 2#32 = true := by decide

theorem test_pack10_cells :
    leaves (running 0x11#32 (raster 4 1 0 16 10 0x40 0x1000) (tiledBank 4 1 0 10 0 0x40 0x2000)
        (bytesAt 0x1000 [0x55, 0x01, 0xAA, 0x02, 0xFF, 0x03, 0x01, 0x00] ++ bytesAt 0x2004 [0xEE]))
      [0x55, 0xA9, 0xFA, 0x3F, 0, 0, 0, 0, 0, 0, 0, 0, 0, 0, 0, 0, 0x01, 0] 2#32 = true := by decide

theorem test_narrow_shift :
    leaves (running 0x12#32 (raster 3 1 0 16 10 0x40 0x1000) (raster 3 1 0 8 0 0x40 0x2000)
        (bytesAt 0x1000 [0x55, 0x01, 0x03, 0x04, 0xFF, 0xFF] ++ bytesAt 0x2003 [0xEE]))
      [0x55, 0x00, 0xFF, 0xEE] 2#32 = true := by decide

theorem test_narrow_few_active_bits :
    leaves (running 0x12#32 (raster 1 1 0 16 7 0x40 0x1000) (raster 1 1 0 8 0 0x40 0x2000) []) [0] 0x14#32 = true := by
  decide

theorem test_widen_shift :
    leaves (running 0x13#32 (raster 3 1 0 8 0 0x40 0x1000) (raster 3 1 0 16 10 0x40 0x2000)
        (bytesAt 0x1000 [0xFF, 0x01, 0x80]))
      [0xFC, 0x03, 0x04, 0x00, 0x00, 0x02, 0x00] 2#32 = true := by decide

theorem test_widen_unset_active_bits :
    leaves (running 0x13#32 (raster 1 1 0 8 0 0x40 0x1000) (raster 1 1 0 16 0 0x40 0x2000) (bytesAt 0x1000 [0x80]))
      [0x00, 0x80] 2#32 = true := by decide

theorem test_rescale16_left :
    leaves (running 0x14#32 (raster 2 1 0 16 10 0x40 0x1000) (raster 2 1 0 16 16 0x40 0x2000)
        (bytesAt 0x1000 [0xFF, 0x03, 0x00, 0x04]))
      [0xC0, 0xFF, 0x00, 0x00] 2#32 = true := by decide

theorem test_rescale16_right :
    leaves (running 0x14#32 (raster 2 1 0 16 12 0x40 0x1000) (raster 2 1 0 16 10 0x40 0x2000)
        (bytesAt 0x1000 [0xFF, 0x0F, 0x03, 0x00]))
      [0xFF, 0x03, 0x00, 0x00] 2#32 = true := by decide

/-! ### Remapper (95_test_vectors.md V-R1 to V-R7; 42_remapper.md R143, R144) -/

/-- The 50 bytes of V-R1's raster frame. -/
def rasterBytes : List Nat :=
  [0x00, 0x01, 0x02, 0x03, 0x04, 0x05, 0x06, 0x07, 0x08, 0x09,
    0x10, 0x11, 0x12, 0x13, 0x14, 0x15, 0x16, 0x17, 0x18, 0x19,
    0x20, 0x21, 0x22, 0x23, 0x24, 0x25, 0x26, 0x27, 0x28, 0x29,
    0x30, 0x31, 0x32, 0x33, 0x34, 0x35, 0x36, 0x37, 0x38, 0x39,
    0x40, 0x41, 0x42, 0x43, 0x44, 0x45, 0x46, 0x47, 0x48, 0x49]

theorem test_tile8_partial_cells :
    after (step (running 0x21#32 (raster 10 5 0 8 0 0x40 0x1000) (tiledBank 10 5 0 8 0 0x80 0x2000)
        (bytesAt 0x1000 rasterBytes ++ bytesAt 0x2022 [0xEE])))
      (fun t => readBytes t.mem 0x2018 12 == [0x30, 0x31, 0x32, 0x33, 0x34, 0x35, 0x36, 0x37, 0x08, 0x09, 0, 0] &&
        readBytes t.mem 0x2060 3 == [0x48, 0x49, 0] && t.status.word == 2#32) = true := by decide

theorem test_untile8_rows :
    leaves (running 0x20#32 (tiledBank 10 2 0 8 0 0x80 0x1000) (raster 10 2 0 8 0 0x40 0x2000)
        (bytesAt 0x1000 [1, 2, 3, 4, 5, 6, 7, 8, 0x11, 0x12] ++ bytesAt 0x1020 [9, 10, 0xEE] ++ bytesAt 0x1028 [0x19]))
      [1, 2, 3, 4, 5, 6, 7, 8, 9, 10, 0x11, 0x12, 0, 0, 0, 0, 0, 0, 0x19, 0, 0] 2#32 = true := by decide

/-- The planar frame of V-R3. -/
def planar16 : List Nat :=
  [1, 0, 2, 0, 3, 0, 4, 0, 5, 0, 6, 0, 7, 0, 8, 0, 0x23, 0x01, 0x34, 0x02, 0x45, 0x03, 0x56, 0x01]

theorem test_p2sp_second_variant :
    leaves (running 0x23#32 (raster 4 2 1 16 10 0x40 0x1000) (raster 4 2 3 16 0 0x40 0x2000) (bytesAt 0x1000 planar16))
      [1, 0, 2, 0, 3, 0, 4, 0, 5, 0, 6, 0, 7, 0, 8, 0, 0x45, 0x03, 0x23, 0x01, 0x56, 0x01, 0x34, 0x02, 0] 2#32 =
      true := by decide

theorem test_p2sp_overlap :
    leaves (running 0x23#32 (raster 4 2 1 8 0 0x40 0x2000) (raster 4 2 2 8 0 0x40 0x2008) (bytesAt 0x2000 [7])) [7]
      0x54#32 = true := by decide

theorem test_sp2p_first_variant :
    leaves (running 0x22#32 (raster 4 2 2 8 0 0x40 0x1000) (raster 4 2 1 8 0 0x40 0x2000)
        (bytesAt 0x1000 [0x10, 0x11, 0x12, 0x13, 0x14, 0x15, 0x16, 0x17, 0xA0, 0xB0, 0xA1, 0xB1]))
      [0x10, 0x11, 0x12, 0x13, 0x14, 0x15, 0x16, 0x17, 0xA0, 0xA1, 0xB0, 0xB1, 0] 2#32 = true := by decide

/-- The planar frame of V-R4. -/
def planar422 : List Nat :=
  [0x10, 0x11, 0x12, 0x13, 0x14, 0x15, 0x16, 0x17, 0xA0, 0xA1, 0xA2, 0xA3, 0xB0, 0xB1, 0xB2, 0xB3]

theorem test_p2pk_first_variant :
    leaves (running 0x25#32 (raster 4 2 4 8 0 0x40 0x1000) (raster 4 2 7 8 0 0x40 0x2000) (bytesAt 0x1000 planar422))
      [0xA0, 0x10, 0xB0, 0x11, 0xA1, 0x12, 0xB1, 0x13, 0xA2, 0x14, 0xB2, 0x15, 0xA3, 0x16, 0xB3, 0x17, 0] 2#32 =
      true := by decide

theorem test_pk2p_second_variant :
    leaves (running 0x24#32 (raster 4 2 8 8 0 0x40 0x1000) (raster 4 2 4 8 0 0x40 0x2000)
        (bytesAt 0x1000 [0x10, 0xA0, 0x11, 0xB0, 0x12, 0xA1, 0x13, 0xB1, 0x14, 0xA2, 0x15, 0xB2, 0x16, 0xA3, 0x17, 0xB3]))
      planar422 2#32 = true := by decide

theorem test_resample_drops_rows :
    leaves (running 0x26#32 (raster 2 4 4 8 0 0x40 0x1000) (raster 2 4 1 8 0 0x40 0x2000)
        (bytesAt 0x1000 [1, 2, 3, 4, 5, 6, 7, 8, 0xA0, 0xA2, 0xA4, 0xA6, 0xB0, 0xB2, 0xB4, 0xB6]))
      [1, 2, 3, 4, 5, 6, 7, 8, 0xA0, 0xA4, 0xB0, 0xB4, 0] 2#32 = true := by decide

theorem test_resample_repeats_rows :
    leaves (running 0x26#32 (raster 2 4 1 8 0 0x40 0x1000) (raster 2 4 4 8 0 0x40 0x2000)
        (bytesAt 0x1000 [1, 2, 3, 4, 5, 6, 7, 8, 0xA0, 0xA4, 0xB0, 0xB4]))
      [1, 2, 3, 4, 5, 6, 7, 8, 0xA0, 0xA0, 0xA4, 0xA4, 0xB0, 0xB0, 0xB4, 0xB4] 2#32 = true := by decide

theorem test_rectcopy_keeps_padding :
    leaves (running 0x27#32 (raster 4 2 1 8 0 0x40 0x1000) (laid (bank 4 2 1 8 0 false 6 24 0x40 0x2000))
        (bytesAt 0x1000 [0x10, 0x11, 0x12, 0x13, 0x14, 0x15, 0x16, 0x17, 0xA0, 0xA1, 0xB0, 0xB1] ++
          bytesAt 0x2004 [0xEE, 0xEE]))
      [0x10, 0x11, 0x12, 0x13, 0xEE, 0xEE, 0x14, 0x15, 0x16, 0x17, 0, 0, 0xA0, 0xA1, 0, 0xB0, 0xB1, 0] 2#32 =
      true := by decide

theorem test_rectcopy_in_place :
    leaves (running 0x27#32 (raster 4 2 1 8 0 0x40 0x2000) (raster 4 2 1 8 0 0x40 0x2000) []) [0] 0x54#32 = true := by
  decide

/-! ### CONVERT (95_test_vectors.md programs P5, P3's shape, V-O3) -/

/-- Program P5: 4 by 2 mono, compact 10-bit to 8-bit, through both scratch buffers. -/
def p5 (base0 cap0 base1 cap1 : Word) : State :=
  { running 0x30#32 (raster 4 2 0 10 0 10 0x1000) (raster 4 2 0 8 0 0xFFFFFFFF 0)
      (bytesAt 0x1000 [0xFF, 0x03, 0x50, 0x95, 0xAA, 0x01, 0x08, 0x30, 0x00, 0x01]) with
    scr0Base := base0
    scr0Cap := cap0
    scr1Base := base1
    scr1Cap := cap1 }

/-- Program P5 as it stands. -/
def p5ok : State := p5 0x2000#32 0x40#32 0x3000#32 0x40#32

theorem test_convert_p5 :
    after (step p5ok) (fun t => readBytes t.mem 0x3000 8 == [0xFF, 0x00, 0x55, 0xAA, 0x00, 0x00, 0x00, 0x01] &&
      t.status.word == 0x00022202#32 && t.bankW.base == 0x3000#32 && t.bankW.valid) = true := by decide

theorem test_convert_errors :
    (after (step (p5 0x2000#32 0x40#32 0x3000#32 7#32)) fun t =>
      t.status.word == 0x244#32 && t.errinfo.word == 0x230#32) = true ∧
    (after (step (p5 0xFFFFFFF0#32 0x40#32 0x3000#32 0x40#32)) fun t => t.status.word == 0x44#32) = true ∧
    (after (step (p5 0x2000#32 0x40#32 0x2020#32 0x40#32)) fun t => t.status.word == 0x54#32) = true := by decide

/-! ### Witnesses: states and operands that meet the hypotheses of the obligations -/

/-- A busy state with `wait` steps to go and one transaction to come. -/
def waiting (w : Word) (k : Nat) (i : Input) : State :=
  { running w (raster 4 2 1 8 0 0x40 0x1000) (raster 4 2 2 8 0 0x40 0x2000) [] with
    wait := k
    inputs := [i] }

/-- A state with no command running and one transaction to come. -/
def idleWith (i : Input) : State := { State.reset with inputs := [i] }

/-- The state an error leaves, with one transaction to come. -/
def failedState (i : Input) : State := { (State.reset.failedWith 6#4 0#4) with inputs := [i] }

/-- Two banks laid out, the last command completed with `DONE`, with one transaction to come. -/
def laidOutWith (i : Input) : State := { pairOf 1 2 8 with status := { Status.reset with done := true }, inputs := [i] }

/-- A region of the engine, `0x1000` to `0x100B`, with one host access to come. -/
def ownedWith (i : Input) : State := { waiting 0x23#32 1 i with owned := [⟨0x1000, 12⟩] }

theorem witness_DecodeEncodeAgree : Instr.convert.wf = true ∧ decode 0x30#32 = .ok .convert := by decide

theorem witness_IllegalCommandCompletes :
    ∀ w ∈ [4#32, 0x10030#32], (running w Bank.reset Bank.reset []).status.busy = true ∧
      (running w Bank.reset Bank.reset []).wait = 0 ∧ ∀ i : Instr, (running w Bank.reset Bank.reset []).cmd ≠ encode i := by
  intro w hw
  simp only [List.mem_cons, List.not_mem_nil, or_false] at hw
  refine ⟨rfl, rfl, fun i => ?_⟩
  rcases hw with rfl | rfl <;> cases i <;> decide

theorem witness_StepRunsDecodedCommand :
    (p5ok.status.busy = true ∧ p5ok.wait = 0 ∧ decode p5ok.cmd = .ok .convert ∧ Instr.convert.wf = true) ∧
      decodeTableWord 32 0x23 = some .p2sp ∧ decodeTableWord 8 0x30 = some .convert := by decide

theorem witness_AcceptedCommandCompletes :
    State.Inv { waiting 0x23#32 3 .reset with inputs := [] } ∧ (waiting 0x23#32 3 .reset).status.busy = true ∧
      p5ok.Inv ∧ p5ok.status.busy = true ∧ p5ok.inputs = [] := by decide

theorem witness_CommandAcceptance :
    -- accepted: no layout, an illegal word, a layout command
    ((idleWith (.regWrite 0x004 32 0x23#32)).status.busy = false ∧
      (idleWith (.regWrite 0x004 32 0x23#32)).status.err = false ∧
      ¬((idleWith (.regWrite 0x004 32 0x23#32)).bankS.valid = true ∧
        (idleWith (.regWrite 0x004 32 0x23#32)).bankD.valid = true) ∧
      decode 0xFF#32 = .error .unlistedOpcode ∧ decode 1#32 = .ok .layoutS) ∧
    -- accepted with both banks laid out: a primitive, CONVERT
    ((laidOutWith (.regWrite 0x004 32 0x23#32)).status.busy = false ∧
      (laidOutWith (.regWrite 0x004 32 0x23#32)).status.err = false ∧
      (laidOutWith (.regWrite 0x004 32 0x23#32)).bankS.valid = true ∧
      (laidOutWith (.regWrite 0x004 32 0x23#32)).bankD.valid = true ∧
      decode 0x23#32 = .ok Prim.p2sp.instr ∧ decode 0x30#32 = .ok .convert) ∧
    -- dropped: while a command runs, after an error
    ((waiting 0x23#32 1 (.regWrite 0x004 32 0#32)).status.busy = true ∧
      (waiting 0x23#32 1 (.regWrite 0x004 32 0#32)).wait ≠ 0) ∧
    ((failedState (.regWrite 0x004 32 0#32)).status.busy = false ∧
      (failedState (.regWrite 0x004 32 0#32)).status.err = true) ∧
    -- the interrupt line high and low
    { laidOutWith .reset with irqEn := { doneEn := true, errEn := false } }.irq = true ∧
    (laidOutWith .reset).irq = false := by decide

theorem witness_BusyWritesDropped :
    ((waiting 0x23#32 1 (.regWrite 0x0FC 32 1#32)).status.busy = true ∧
      (waiting 0x23#32 1 (.regWrite 0x0FC 32 1#32)).wait ≠ 0 ∧ (0x0FC, Reg.bank .w .reserved) ∈ registerMap ∧
      Reg.bank .w .reserved ≠ .irqEn ∧
      (waiting 0x23#32 1 (.regWrite 0x0FC 32 1#32)).inputs = .regWrite 0x0FC 32 1#32 :: []) ∧
    ((waiting 0x23#32 9 (.regWrite 0x010 32 3#32)).status.busy = true ∧
      (waiting 0x23#32 9 (.regWrite 0x010 32 3#32)).wait ≠ 0 ∧ (0x010, Reg.irqEn) ∈ registerMap ∧
      (waiting 0x23#32 9 (.regWrite 0x010 32 3#32)).inputs = .regWrite 0x010 32 3#32 :: []) ∧
    ((waiting 0x23#32 1 (.regRead 0x008 32)).wait ≠ 0 ∧ (0x008, Reg.status) ∈ registerMap ∧
      (waiting 0x23#32 1 (.regRead 0x008 32)).inputs = .regRead 0x008 32 :: []) := by decide

theorem witness_RegisterWriteReadback :
    State.reset.status.busy = false ∧ (Reg.bank .s .format).writeMask = some 0x001F1F1F#32 ∧
      Reg.scr1Cap.writeMask = some 0xFFFFFFFF#32 ∧ (Reg.bank .w .base).writeMask = none ∧
      Reg.id.writeMask = none ∧ Reg.id ≠ .cmd ∧ Reg.id ≠ .status ∧ Reg.errinfo ≠ .cmd ∧
      (BankId.w, State.reset.bankW) ∈ [(BankId.s, State.reset.bankS), (.d, State.reset.bankD), (.w, State.reset.bankW)] := by
  decide

theorem witness_RequestWriteClearsValid :
    (pairOf 1 1 8).status.busy = false ∧ (pairOf 1 1 8).bankS.valid = true ∧ (pairOf 1 1 8).bankD.valid = true ∧
      BankSlot.bufSize ∈ [BankSlot.width, .height, .format, .tile, .reqStride, .reqIosize, .bufSize] ∧
      BankSlot.base ∈ [BankSlot.yStride, .uvStride, .ySize, .uvSize, .ioSize, .base, .valid, .reserved] := by decide

theorem witness_AcknowledgeReturnsFromError :
    ((failedState .reset).StatusSound ∧ (failedState .reset).status.err = true ∧ (6#32).getLsbD 2 = true) ∧
      ((laidOutWith .reset).StatusSound ∧ (laidOutWith .reset).status.busy = false ∧
        (laidOutWith .reset).status.done = true ∧ (laidOutWith .reset).status.err = false) ∧
      ((failedState .reset).status.busy = false ∧ (0xFFFFFFFB#32).getLsbD 2 = false) := by decide

theorem witness_HostMemoryAccess :
    (¬((ownedWith (.memRead 0x100B#32)).status.busy = true ∧ (ownedWith (.memRead 0x100B#32)).wait = 0) ∧
      (ownedWith (.memRead 0x100B#32)).irq = false ∧ (ownedWith (.memRead 0x100B#32)).owned = [⟨0x1000, 12⟩] ∧
      0x1000 ≤ (0x100B#32).toNat ∧ (0x100B#32).toNat < 0x1000 + 12 ∧
      (ownedWith (.memRead 0x100B#32)).inputs = .memRead 0x100B#32 :: []) ∧
    (0x1000 ≤ (0x1000#32).toNat ∧ (ownedWith (.memWrite 0x1000#32 5#8)).inputs = .memWrite 0x1000#32 5#8 :: []) ∧
    (¬(0x100C#32).toNat < 0x1000 + 12 ∧ (ownedWith (.memRead 0x100C#32)).inputs = .memRead 0x100C#32 :: []) ∧
    (¬(0xFFFFFFFF#32).toNat < 0x1000 + 12 ∧
      (ownedWith (.memWrite 0xFFFFFFFF#32 5#8)).inputs = .memWrite 0xFFFFFFFF#32 5#8 :: [] ∧
      Memory.wf (ownedWith (.memWrite 0xFFFFFFFF#32 5#8)).mem = true) ∧
    -- the interrupt line high after a completion: the regions are given back
    (let s := { ownedWith (.memRead 0x100B#32) with status := { Status.reset with done := true }, irqEn := ⟨true, false⟩ }
     s.irq = true ∧ ¬(s.status.busy = true ∧ s.wait = 0)) := by decide

theorem witness_OffMapAccessRefused :
    (¬((idleWith (.regRead 0x0FE 32)).status.busy = true ∧ (idleWith (.regRead 0x0FE 32)).wait = 0) ∧
      0x0FE % 4 ≠ 0 ∧ 0x0FC < 0x100 ∧ 16 ≠ 32 ∧
      (idleWith (.regRead 0x0FE 32)).inputs = .regRead 0x0FE 32 :: [] ∧
      (idleWith (.regWrite 0x100 32 1#32)).inputs = .regWrite 0x100 32 1#32 :: [] ∧
      (idleWith (.regRead 0x008 16)).inputs = .regRead 0x008 16 :: []) ∧
    ((idleWith (.regRead 0x008 32)).inputs = .regRead 0x008 32 :: [] ∧ (0x008, Reg.status) ∈ registerMap ∧
      (idleWith (.regRead 0x008 32)).status.busy = false ∧
      (idleWith (.regWrite 0x0B0 32 5#32)).inputs = .regWrite 0x0B0 32 5#32 :: [] ∧
      (0x0B0, Reg.bank .d .base) ∈ registerMap ∧ (0x000, Reg.id) ∈ registerMap ∧
      (0x0FC, Reg.bank .w .reserved) ∈ registerMap) := by decide

theorem witness_InterruptFollowsCompletion :
    (p5ok.status.err = false ∧ exec .convert p5ok = .next (nextOf (exec .convert p5ok)) ∧
      (nextOf (exec .convert p5ok)).status.err = false) ∧
    (State.reset.status.err = false ∧ exec .p2sp State.reset = .next (nextOf (exec .p2sp State.reset)) ∧
      (nextOf (exec .p2sp State.reset)).status.err = true) :=
  ⟨⟨by decide, next_of (by decide), by decide⟩, by decide, next_of (by decide), by decide⟩

theorem witness_ResetInputLeavesMemory :
    (¬((waiting 0x23#32 1 .reset).status.busy = true ∧ (waiting 0x23#32 1 .reset).wait = 0) ∧
      (waiting 0x23#32 1 .reset).inputs = .reset :: []) ∧
    ((idleWith .reset).status.busy = false ∧ (idleWith .reset).inputs = .reset :: []) ∧
    ∀ i : Instr, decode (waiting 0x23#32 1 .reset).cmd = .ok i →
      ∀ r ∈ (waiting 0x23#32 1 .reset).writableRegions i, r.contains 0x200C = false := by
  refine ⟨by decide, by decide, fun i h r hr => ?_⟩
  have hi : i = .p2sp := by cases i <;> first | rfl | exact absurd h (by decide)
  subst hi
  exact (show ∀ r ∈ (waiting 0x23#32 1 .reset).writableRegions .p2sp, r.contains 0x200C = false by decide) r hr

/-- Program P5's step. -/
theorem p5_steps : step p5ok = .next (nextOf (step p5ok)) := next_of (by decide)

theorem witness_StepKeepsMemoryCanonical : Memory.wf p5ok.mem = true ∧ step p5ok = .next (nextOf (step p5ok)) :=
  ⟨by decide, p5_steps⟩

theorem witness_StepKeepsStatusSound : p5ok.StatusSound ∧ step p5ok = .next (nextOf (step p5ok)) :=
  ⟨by decide, p5_steps⟩

theorem witness_StepKeepsOperandBanksSound :
    p5ok.OperandsSound ∧ p5ok.bankS.valid = true ∧ step p5ok = .next (nextOf (step p5ok)) :=
  ⟨by decide, by decide, p5_steps⟩

theorem witness_StepKeepsResultBankSound :
    p5ok.OperandsSound ∧ p5ok.bankW.sound = true ∧ step p5ok = .next (nextOf (step p5ok)) ∧
      (nextOf (step p5ok)).bankW.valid = true :=
  ⟨by decide, by decide, p5_steps, by decide⟩

theorem witness_SoundStateNeverFaults : p5ok.OperandsSound ∧ p5ok.bankS.valid = true ∧ p5ok.bankD.valid = true := by
  decide

theorem witness_CommandsEndInDoneOrPreciseError :
    State.reset.status.err = false ∧ exec .nop State.reset = .next (nextOf (exec .nop State.reset)) ∧
      exec .tile8 State.reset = .next (nextOf (exec .tile8 State.reset)) :=
  ⟨by decide, next_of (by decide), next_of (by decide)⟩

theorem witness_CommandFrame :
    exec .copylayout p5ok = .next (nextOf (exec .copylayout p5ok)) ∧
      exec .convert p5ok = .next (nextOf (exec .convert p5ok)) ∧ Instr.nop ≠ .layoutS ∧ Instr.nop ≠ .convert ∧
      Instr.copylayout ∈ [Instr.nop, .layoutS, .layoutD, .copylayout] :=
  ⟨next_of (by decide), next_of (by decide), by decide, by decide, by decide⟩

/-- `P2SP` between two laid-out frames. -/
def p2spState : State :=
  running 0x23#32 (raster 4 2 1 8 0 0x40 0x1000) (raster 4 2 2 8 0 0x40 0x2000) (bytesAt 0x1000 [1, 2, 3, 4])

theorem witness_PrimitivesWriteOnlyDestination :
    p2spState.OperandsSound ∧ exec Prim.p2sp.instr p2spState = .next (nextOf (exec Prim.p2sp.instr p2spState)) ∧
      (nextOf (exec Prim.p2sp.instr p2spState)).status.done = true ∧ p2spState.bankD.region.contains 0x200C = false ∧
      p2spState.bankS.region.contains 0x100B = true :=
  ⟨by decide, next_of (by decide), by decide, by decide, by decide⟩

theorem witness_ConvertWritesOnlyScratch :
    p5ok.OperandsSound ∧ exec .convert p5ok = .next (nextOf (exec .convert p5ok)) ∧
      p5ok.scr0.contains 0x2040 = false ∧ p5ok.scr1.contains 0x2040 = false ∧ p5ok.bankS.region.contains 0x1009 = true :=
  ⟨by decide, next_of (by decide), by decide, by decide, by decide⟩

/-! Layout. -/

theorem witness_LayoutCommandsWriteDerivedFields :
    layout (bank 65535 65535 0 8 0 false 0 0 0xFFFFFFFF 0).request = .ok ⟨65535, 0, 4294836225, 0, 4294836225⟩ ∧
      layout (bank 4 2 1 8 0 false 6 24 24 0).request = .ok ⟨6, 3, 12, 3, 24⟩ ∧
      layout (bank 4 2 1 8 0 false 6 24 23 0).request = .error .alloc ∧
      layout (bank 3 2 1 8 0 false 0 0 99 0).request = .error .geom := by decide

theorem witness_CopylayoutStampsDestination :
    layout { (bank 4 2 1 8 0 false 6 24 0 0x1000).request with bufSize := (24#32).toNat } = .ok ⟨6, 3, 12, 3, 24⟩ ∧
      layout { (bank 4 2 1 8 0 false 6 24 0 0x1000).request with bufSize := (0#32).toNat } = .error .alloc := by decide

theorem witness_LayoutErrorOrder :
    let a := (bank 16 16 0 16 0 true 0 0 0xFFFFFFFF 0).request
    let b := { (bank 16 16 0 8 0 true 0 0 0xFFFFFFFF 0).request with tsz := 40 }
    let c := (bank 10 5 0 8 0 true 0 0 127 0).request
    let d := (bank 10 5 0 8 0 true 0 0 128 0).request
    (a.tiled = true ∧ a.nbit = 16) ∧
    (b.tiled = true ∧ b.nbit = 8 ∧ b.fmt = .f400p ∧ b.nlsb ≤ b.nbit ∧ (b.tw, b.th, b.tsz) ≠ (8, 4, 32)) ∧
    (c.fmt = .f400p ∧ c.nbit = 8 ∧ c.nlsb ≤ 8 ∧ (c.tw, c.th, c.tsz) = (8, 4, 32) ∧ c.width ≠ 0 ∧ c.height ≠ 0 ∧
      c.bufSize < c.frameSize) ∧
    (d.fmt = .f400p ∧ d.nbit = 8 ∧ d.nlsb ≤ 8 ∧ (d.tw, d.th, d.tsz) = (8, 4, 32) ∧ d.width ≠ 0 ∧ d.height ≠ 0 ∧
      d.frameSize ≤ d.bufSize) := by decide

/-- The layouts of every group of formats, raster and tiled, the smallest and padded ones among them. -/
theorem witness_LayoutFormulas :
    layout (bank 1 1 0 10 0 false 0 0 2 0).request = .ok ⟨2, 0, 2, 0, 2⟩ ∧
      layout (bank 4 1 0 10 0 true 0 0 32 0).request = .ok ⟨32, 0, 32, 0, 32⟩ ∧
      layout (bank 6 2 8 10 0 false 0 0 32 0).request = .ok ⟨16, 0, 32, 0, 32⟩ ∧
      layout (bank 8 4 2 8 0 false 16 0 96 0).request = .ok ⟨16, 16, 64, 32, 96⟩ ∧
      layout (bank 2 2 1 10 0 false 0 0 10 0).request = .ok ⟨3, 2, 6, 2, 10⟩ ∧
      layout (bank 4 3 4 8 0 false 0 0 24 0).request = .ok ⟨4, 2, 12, 6, 24⟩ ∧
      layout (bank 32 32 1 10 0 true 0 0 2176 0).request = .ok ⟨176, 96, 1408, 384, 2176⟩ ∧
      layout (bank 32 32 2 10 0 true 0 0 2112 0).request = .ok ⟨176, 176, 1408, 704, 2112⟩ := by decide

theorem witness_LayoutBounds :
    layout (bank 10 5 0 8 0 true 0 0 128 0).request = .ok (tiledBank 10 5 0 8 0 128 0).derived ∧
      (tiledBank 10 5 0 8 0 128 0).desc.toRequest = (bank 10 5 0 8 0 true 0 0 128 0).request ∧
      (bank 10 5 0 8 0 true 0 0 128 0).request.bufSize < 4294967296 ∧
      (tiledBank 10 5 0 8 0 128 0).desc.hasSample 0 9 4 ∧ (tiledBank 4 1 0 10 0 32 0).desc.hasSample 0 3 0 ∧
      (raster 2 2 1 10 0 10 0).desc.hasSample 2 0 0 ∧ (raster 4 2 3 16 0 64 0).desc.hasSample 1 3 0 ∧
      (tiledBank 4 1 0 10 0 32 0).valid = true ∧ (raster 2 2 1 10 0 10 0).valid = true := by decide

theorem witness_LayoutInvariants :
    layout (bank 2 2 1 10 10 false 0 0 10 0).request = .ok ⟨3, 2, 6, 2, 10⟩ ∧
      layout (bank 4 2 3 16 16 false 0 0 24 0).request = .ok ⟨8, 8, 16, 8, 24⟩ ∧
      layout (bank 8 4 1 8 8 true 0 0 96 0).request = .ok ⟨32, 32, 32, 32, 96⟩ := by decide

theorem witness_LayoutChromaRatios :
    layout (bank 4 2 1 8 0 false 0 0 12 0).request = .ok ⟨4, 2, 8, 2, 12⟩ ∧
      layout (bank 2 2 1 10 0 false 0 0 10 0).request = .ok ⟨3, 2, 6, 2, 10⟩ ∧
      layout (bank 16 8 1 8 0 true 0 0 192 0).request = .ok ⟨64, 32, 128, 32, 192⟩ ∧
      (bank 16 8 1 8 0 true 0 0 192 0).request.chromaRows % 4 = 0 ∧ 16 % (2 * 8) = 0 := by decide

/-! Primitives. -/

theorem witness_PrimitiveCheckOrder :
    -- no layout
    ¬(State.reset.bankS.valid = true ∧ State.reset.bankD.valid = true) ∧
    -- not admissible
    (p2spState.bankS.valid = true ∧ p2spState.bankD.valid = true ∧
      ¬Prim.tile8.Admits p2spState.bankS.desc p2spState.bankD.desc) ∧
    -- unequal depth, unequal height
    (let s := running 0#32 (raster 4 2 1 8 0 0x40 0x1000) (raster 4 2 2 16 0 0x40 0x2000) []
     s.bankS.valid = true ∧ s.bankD.valid = true ∧ Prim.p2sp.Admits s.bankS.desc s.bankD.desc ∧
      s.bankS.desc.nbit ≠ s.bankD.desc.nbit ∧
      Prim.p2sp ∈ [Prim.sp2p, .p2sp, .pk2p, .p2pk, .resample, .rectcopy]) ∧
    (let s := running 0#32 (raster 4 2 0 8 0 0x40 0x1000) (raster 4 3 0 16 0 0x40 0x2000) []
     s.bankD.valid = true ∧ Prim.widen.Admits s.bankS.desc s.bankD.desc ∧
      s.bankS.desc.height ≠ s.bankD.desc.height ∧
      Prim.widen ∉ [Prim.sp2p, .p2sp, .pk2p, .p2pk, .resample, .rectcopy]) ∧
    -- one byte past memory, and just inside it
    (4294967296 < (raster 4 2 2 8 0 0x40 0xFFFFFFF5).desc.base + (raster 4 2 2 8 0 0x40 0xFFFFFFF5).desc.ioSize) ∧
    ¬(4294967296 < (raster 4 2 2 8 0 0x40 0xFFFFFFF4).desc.base + (raster 4 2 2 8 0 0x40 0xFFFFFFF4).desc.ioSize) ∧
    -- frames that share one byte
    ((raster 4 2 1 8 0 0x40 0x1000).desc.base < (raster 4 2 2 8 0 0x40 0x100B).desc.base + 12 ∧
      (raster 4 2 2 8 0 0x40 0x100B).desc.base < (raster 4 2 1 8 0 0x40 0x1000).desc.base + 12) := by
  simp only [Prim.Admits]
  decide

theorem witness_UnpackRowClosedForm : 2 < 3 := by decide

theorem witness_PackRowRoundTrip :
    (Memory.wf [] = true ∧ (∀ x ∈ [1023, 0, 512], x < 1024) ∧
      0xFFFFFFFC + ceilDiv (10 * [1023, 0, 512].length) 8 ≤ 4294967296) ∧
    (Memory.wf (bytesAt 0x1000 [1, 0xFC, 0x0F, 0x20]) = true ∧ 0x1000 + ceilDiv (10 * 3) 8 ≤ 4294967296 ∧
      ∀ j, 10 * 3 ≤ j → j < 8 * ceilDiv (10 * 3) 8 → rowBit (bytesAt 0x1000 [1, 0xFC, 0x0F, 0x20]) 0x1000 j = 0) := by
  refine ⟨by decide, by decide, by decide, fun j h1 h2 => ?_⟩
  have h3 : j < 32 := h2
  have h : j = 30 ∨ j = 31 := by omega
  rcases h with rfl | rfl <;> decide

/-- Raster, and tiled with the source at the top of memory. -/
theorem witness_Unpack10Result :
    (pairBanks (raster 3 2 0 10 0 0x80 0x1000) (raster 3 2 0 16 10 0x80 0x2000)).FramesReady ∧
      (pairBanks (tiledBank 6 4 1 10 0 0x100 0xFFFFFF60) (raster 6 4 1 16 10 0x80 0x2000)).FramesReady ∧
      (tiledBank 6 4 1 10 0 0x100 0xFFFFFF60).desc.hasSample 2 2 1 := by decide

theorem witness_Pack10Result :
    (pairBanks (raster 3 2 0 16 10 0x80 0x1000) (raster 3 2 0 10 0 0x80 0x2000)).FramesReady ∧
      (pairBanks (raster 6 4 2 16 10 0x100 0x1000) (tiledBank 6 4 2 10 0 0x100 0x2000)).FramesReady ∧
      (raster 3 2 0 16 10 0x80 0x1000).desc.hasSample 0 2 1 := by decide

theorem witness_NarrowResult :
    (pairBanks (raster 4 2 1 16 0 0x80 0x1000) (raster 4 2 1 8 0 0x80 0x2000)).FramesReady ∧
      (pairBanks (raster 4 2 7 16 8 0x80 0x2000) (raster 4 2 7 8 8 0x80 0x1000)).FramesReady ∧
      (raster 4 2 1 16 0 0x80 0x1000).desc.hasSample 2 1 0 := by decide

theorem witness_WidenResult :
    (pairBanks (raster 4 2 1 8 0 0x80 0x1000) (raster 4 2 1 16 0 0x80 0x2000)).FramesReady ∧
      (pairBanks (raster 4 2 6 8 8 0x80 0x1000) (raster 4 2 6 16 8 0x80 0x2000)).FramesReady ∧
      (raster 4 2 6 8 8 0x80 0x1000).desc.hasSample 1 3 1 := by decide

theorem witness_Rescale16Result :
    (pairBanks (raster 4 2 1 16 16 0x80 0x1000) (raster 4 2 1 16 1 0x80 0x2000)).FramesReady ∧
      (pairBanks (raster 4 2 3 16 1 0x80 0x1000) (raster 4 2 3 16 0 0x80 0x2000)).FramesReady := by decide

theorem witness_Untile8Result :
    (pairBanks (tiledBank 10 5 0 8 0 0x80 0x1000) (raster 10 5 0 8 0 0x80 0x2000)).FramesReady ∧
      (tiledBank 10 5 0 8 0 0x80 0x1000).desc.hasSample 0 9 4 := by decide

theorem witness_Tile8Result :
    (pairBanks (raster 10 6 1 8 0 0x80 0x1000) (tiledBank 10 6 1 8 0 0x200 0x2000)).FramesReady ∧
      1 < ceilDiv (plane (tiledBank 10 6 1 8 0 0x200 0x2000).desc 0).rows 4 ∧
      0 < ceilDiv (plane (tiledBank 10 6 1 8 0 0x200 0x2000).desc 2).ws 8 := by decide

/-- `TILE8` of one raster row, to be untiled at `0x3000`. -/
def tileState : State := pairBanks (raster 10 1 0 8 0 0x80 0x1000) (tiledBank 10 1 0 8 0 0x80 0x2000)

/-- The state before `UNTILE8`. -/
def untileState : State :=
  { nextOf (exec .tile8 tileState) with
    bankS := tileState.bankD
    bankD := raster 10 1 0 8 0 0x80 0x1000 }

theorem witness_TileThenUntile :
    tileState.FramesReady ∧ exec .tile8 tileState = .next (nextOf (exec .tile8 tileState)) ∧
      (nextOf (exec .tile8 tileState)).status.done = true ∧ (nextOf (exec .tile8 tileState)).status.err = false ∧
      untileState.FramesReady ∧ exec .untile8 untileState = .next (nextOf (exec .untile8 untileState)) ∧
      (nextOf (exec .untile8 untileState)).status.done = true ∧
      (nextOf (exec .untile8 untileState)).status.err = false ∧ tileState.bankS.desc.hasSample 0 9 0 :=
  ⟨by decide, next_of (by decide), by decide, by decide, by decide, next_of (by decide), by decide, by decide,
    by decide⟩

/-- The four semi-planar formats with their planar bases, at both depths. -/
theorem witness_Sp2pResult :
    ∀ f ∈ [(2, 1), (3, 1), (5, 4), (6, 4)], ∀ n ∈ [8, 16],
      (pairOf f.1 f.2 n).FramesReady ∧ (pairOf f.1 f.2 n).bankS.desc.ByteRaster ∧
        (pairOf f.1 f.2 n).bankD.desc.ByteRaster ∧ (pairOf f.1 f.2 n).bankS.desc.nbit = n := by decide

theorem witness_P2spResult :
    ∀ f ∈ [(2, 1), (3, 1), (5, 4), (6, 4)], ∀ n ∈ [8, 16],
      (pairOf f.2 f.1 n).FramesReady ∧ (pairOf f.2 f.1 n).bankS.desc.ByteRaster ∧
        (pairOf f.2 f.1 n).bankD.desc.ByteRaster ∧ (pairOf f.2 f.1 n).bankD.desc.fmt = PixelFormat.ofCode f.1 := by
  decide

theorem witness_Pk2pResult :
    ∀ f ∈ [7, 8], ∀ n ∈ [8, 16], (pairOf f 4 n).FramesReady ∧ (pairOf f 4 n).bankS.desc.ByteRaster ∧
      (pairOf f 4 n).bankD.desc.ByteRaster ∧ (pairOf f 4 n).bankD.desc.fmt = .f422p := by decide

theorem witness_P2pkResult :
    ∀ f ∈ [7, 8], ∀ n ∈ [8, 16], (pairOf 4 f n).FramesReady ∧ (pairOf 4 f n).bankS.desc.ByteRaster ∧
      (pairOf 4 f n).bankD.desc.ByteRaster ∧ (pairOf 4 f n).bankS.desc.fmt = .f422p := by decide

theorem witness_ResampleResult :
    ∀ f ∈ [1, 4], ∀ g ∈ [1, 4], (pairOf f g 8).FramesReady ∧ (pairOf f g 8).bankS.desc.ByteRaster ∧
      (pairOf f g 8).bankD.desc.ByteRaster ∧ (pairOf f g 8).bankD.desc.hasSample 2 1 0 := by decide

/-- Every depth, raster and tiled, with unequal strides. -/
theorem witness_RectcopyResult :
    (pairBanks (raster 3 1 0 10 0 0x80 0x1000) (laid (bank 3 1 0 10 0 false 8 0 0x80 0x2000))).FramesReady ∧
      (pairBanks (tiledBank 10 5 0 8 0 0x80 0x1000) (laid (bank 10 5 0 8 0 true 96 0 0x100 0x2000))).FramesReady ∧
      (pairBanks (raster 4 2 7 16 0 0x80 0x1000) (laid (bank 4 2 7 16 0 false 0 100 0x80 0x2000))).FramesReady ∧
      storageRows (tiledBank 10 5 0 8 0 0x80 0x1000).desc (plane (tiledBank 10 5 0 8 0 0x80 0x1000).desc 0) = 2 := by
  decide

/-! `CONVERT`. -/

/-- The steps of the plan of a state, none if it has no plan. -/
def stepsOf (s : State) : List PlanStep :=
  match convertPlan s with
  | .ok l => l
  | .error _ => []

theorem plan_of {s : State} (h : (match convertPlan s with | .ok _ => true | .error _ => false) = true) :
    convertPlan s = .ok (stepsOf s) := by
  unfold stepsOf
  cases hc : convertPlan s with
  | ok l => rfl
  | error e => rw [hc] at h; exact absurd h Bool.false_ne_true

/-- A request equal to the source's layout. -/
def sameLayout : State := running 0x30#32 (raster 4 2 1 8 0 12 0x1000) (raster 4 2 1 8 0 0xFFFFFFFF 0) []

theorem witness_ConvertResult :
    (sameLayout.OperandsSound ∧ convertPlan sameLayout = .ok []) ∧
    (p5ok.OperandsSound ∧ convertPlan p5ok = .ok (stepsOf p5ok) ∧ stepsOf p5ok = (stepsOf p5ok).take 1 ++
      [(stepsOf p5ok).getD 1 { stage := .none, prim := .narrow, next := Bank.reset.desc }]) :=
  ⟨⟨by decide, by decide⟩, by decide, plan_of (by decide), by decide⟩

theorem witness_ConvertCompletes :
    p5ok.OperandsSound ∧ p5ok.bankS.valid = true ∧ p5ok.bankD.valid = true ∧
      (p5ok.bankS.desc.fmt = .f400p ↔ p5ok.bankD.desc.fmt = .f400p) ∧ p5ok.bankS.desc.width = p5ok.bankD.desc.width ∧
      p5ok.bankS.desc.height = p5ok.bankD.desc.height ∧ p5ok.bankS.desc.nbit = 10 ∧
      4 * p5ok.bankS.desc.width * p5ok.bankS.desc.height ≤ p5ok.scr0Cap.toNat ∧
      4 * p5ok.bankS.desc.width * p5ok.bankS.desc.height ≤ p5ok.scr1Cap.toNat ∧
      p5ok.bankD.desc.ioSize ≤ p5ok.scr0Cap.toNat ∧ p5ok.bankD.desc.ioSize ≤ p5ok.scr1Cap.toNat ∧
      p5ok.bankS.desc.base + p5ok.bankS.desc.ioSize ≤ 4294967296 ∧
      p5ok.scr0.base + p5ok.scr0.size ≤ 4294967296 ∧ p5ok.scr1.base + p5ok.scr1.size ≤ 4294967296 ∧
      anyOverlap [p5ok.bankS.region, p5ok.scr0, p5ok.scr1] = false := by decide

theorem witness_ConvertIdentity :
    sameLayout.bankS.valid = true ∧ sameLayout.bankD.valid = true ∧
      sameLayout.bankS.desc.width = sameLayout.bankD.desc.width ∧
      sameLayout.bankS.desc.height = sameLayout.bankD.desc.height ∧
      sameLayout.bankS.desc.fmt = sameLayout.bankD.desc.fmt ∧ sameLayout.bankS.desc.nbit = sameLayout.bankD.desc.nbit ∧
      sameLayout.bankS.desc.nbit ≠ 16 ∧ sameLayout.bankS.desc.tiled = sameLayout.bankD.desc.tiled ∧
      sameLayout.bankS.desc.yStride = sameLayout.bankD.desc.yStride ∧
      sameLayout.bankS.desc.ioSize = sameLayout.bankD.desc.ioSize := by decide

/-- The result of planning a state's conversion. -/
def planOf (s : State) : PlanResult :=
  plan s.bankS.desc { dst := s.bankD.desc, cap0 := s.scr0Cap.toNat, cap1 := s.scr1Cap.toNat }

/-- The result of planning is this error. -/
def planFails (s : State) (c : ErrCode) (g : Stage) : Bool :=
  match planOf s with
  | .ok _ => false
  | .error e => e == (c, g)

theorem plan_fails {s : State} {c : ErrCode} {g : Stage} (h : planFails s c g = true) : planOf s = .error (c, g) := by
  unfold planFails at h
  cases hp : planOf s with
  | ok p => rw [hp] at h; exact absurd h Bool.false_ne_true
  | error e => rw [hp] at h; rw [eq_of_beq h]

/-- The steps of a plan, none if planning fails. -/
def plannerOf (s : State) : Planner :=
  match planOf s with
  | .ok p => p
  | .error _ => { steps := [], cur := Bank.reset.desc }

theorem planner_of {s : State} (h : (match planOf s with | .ok _ => true | .error _ => false) = true) :
    planOf s = .ok (plannerOf s) := by
  unfold plannerOf
  cases hp : planOf s with
  | ok p => rfl
  | error e => rw [hp] at h; exact absurd h Bool.false_ne_true

/-- A conversion that narrows samples of 4 active bits. -/
def fewBits : State :=
  { running 0x30#32 (raster 4 2 1 16 4 0x40 0x1000) (raster 4 2 1 8 0 0xFFFFFFFF 0) [] with scr0Cap := 0x100#32 }

/-- Program P5 with `SCR1_CAP = 7`. -/
def p5small : State := p5 0x2000#32 0x40#32 0x3000#32 7#32

/-- Program P5 with a requested stride. -/
def p5pad : State := { p5ok with bankD := laid (bank 4 2 0 8 0 false 6 0 0xFFFFFFFF 0) }

theorem witness_ConvertCheckOrder :
    -- no layout, mono to chroma, unequal height
    ¬(State.reset.bankS.valid = true ∧ State.reset.bankD.valid = true) ∧
    ¬((raster 4 2 0 8 0 99 0).desc.fmt = .f400p ↔ (raster 4 2 1 8 0 99 0).desc.fmt = .f400p) ∧
    (raster 4 2 0 8 0 99 0).desc.height ≠ (raster 4 3 0 8 0 99 0).desc.height ∧
    -- planning fails, planning answers two steps
    planOf p5small = .error (.alloc, .s2) ∧ planOf p5ok = .ok (plannerOf p5ok) ∧ (plannerOf p5ok).steps ≠ [] ∧
    2 ≤ (plannerOf p5ok).steps.length ∧
    -- a scratch buffer one byte past memory, and the last that fits
    (4294967296 < (p5 0xFFFFFFC1#32 0x40#32 0#32 0x40#32).scr0.base + 0x40) ∧
    ¬(4294967296 < (p5 0xFFFFFFC0#32 0x40#32 0#32 0x40#32).scr0.base + 0x40) ∧
    -- buffers that share one byte
    p5ok.bankS.region.overlaps (p5 0x1009#32 0x40#32 0#32 0x40#32).scr0 = true ∧
    (p5 0x2000#32 0x40#32 0x203F#32 0x40#32).scr0.overlaps (p5 0x2000#32 0x40#32 0x203F#32 0x40#32).scr1 = true :=
  ⟨by decide, by decide, by decide, plan_fails (by decide), planner_of (by decide), by decide, by decide, by decide,
    by decide, by decide, by decide⟩

theorem witness_PlanFollowsStages :
    (planOf p5ok = .ok (plannerOf p5ok) ∧ (plannerOf p5ok).cur.yStride = p5ok.bankD.desc.yStride) ∧
      planOf p5pad = .ok (plannerOf p5pad) ∧
      (plannerOf p5pad).steps.map (fun x => x.prim) = [.unpack10, .narrow, .rectcopy] :=
  ⟨⟨planner_of (by decide), by decide⟩, planner_of (by decide), by decide⟩

theorem witness_PlanStagesIncrease :
    planOf p5ok = .ok (plannerOf p5ok) ∧ stageIds (plannerOf p5ok).steps = [1, 2] := ⟨planner_of (by decide), by decide⟩

theorem witness_PlanErrorKinds :
    (layout p5small.bankS.desc.toRequest = .ok p5small.bankS.desc.toDerived ∧
      layout p5small.bankD.desc.toRequest = .ok p5small.bankD.desc.toDerived ∧
      p5small.bankS.desc.width = p5small.bankD.desc.width ∧ p5small.bankS.desc.height = p5small.bankD.desc.height ∧
      (p5small.bankS.desc.fmt = .f400p ↔ p5small.bankD.desc.fmt = .f400p) ∧ planOf p5small = .error (.alloc, .s2)) ∧
    (layout fewBits.bankS.desc.toRequest = .ok fewBits.bankS.desc.toDerived ∧
      layout fewBits.bankD.desc.toRequest = .ok fewBits.bankD.desc.toDerived ∧
      fewBits.bankS.desc.width = fewBits.bankD.desc.width ∧ fewBits.bankS.desc.height = fewBits.bankD.desc.height ∧
      (fewBits.bankS.desc.fmt = .f400p ↔ fewBits.bankD.desc.fmt = .f400p) ∧ planOf fewBits = .error (.unsup, .s2)) :=
  ⟨⟨by decide, by decide, by decide, by decide, by decide, plan_fails (by decide)⟩,
    by decide, by decide, by decide, by decide, by decide, plan_fails (by decide)⟩

/-- The first step of program P5, and the second. -/
theorem witness_ConvertStepsArePrimitives :
    p5ok.OperandsSound ∧
    (∃ x post, convertPlan p5ok = .ok ([] ++ x :: post) ∧
      runSteps p5ok 0 p5ok.bankS.desc [] p5ok.mem = (p5ok.mem, p5ok.bankS.desc)) ∧
    (∃ y x m cur, convertPlan p5ok = .ok (([] ++ [y]) ++ x :: []) ∧
      runSteps p5ok 0 p5ok.bankS.desc ([] ++ [y]) p5ok.mem = (m, cur)) ∧
    exec .convert p5ok = .next (nextOf (exec .convert p5ok)) :=
  have h : convertPlan p5ok = .ok (stepsOf p5ok) := plan_of (by decide)
  let z : PlanStep := { stage := .none, prim := .narrow, next := Bank.reset.desc }
  have e : stepsOf p5ok = [(stepsOf p5ok).getD 0 z, (stepsOf p5ok).getD 1 z] := by decide
  ⟨by decide, ⟨_, _, h.trans (congrArg _ e), rfl⟩, ⟨_, _, _, _, h.trans (congrArg _ e), rfl⟩, next_of (by decide)⟩

theorem witness_ConvertResultMatchesRequest :
    p5ok.OperandsSound ∧ convertPlan p5ok = .ok (stepsOf p5ok) ∧
      exec .convert p5ok = .next (nextOf (exec .convert p5ok)) :=
  ⟨by decide, plan_of (by decide), next_of (by decide)⟩

end Sys2Proof.Tests
end

section
/-! PROOFS. What a command, a transaction and a step can do, said once: inversion lemmas the invariants are derived
from. -/

namespace Sys2Proof.Machine

/-! ### What a command can leave -/

/-- Every state a command `i` can leave from `s`: error entry, or its own completion (30_encoding.md R81). -/
inductive CommandResult (s : State) : Instr → State → Prop
  | failed (i : Instr) (c : ErrCode) (g : Stage) : CommandResult s i (s.raiseError c g)
  | nop : CommandResult s .nop s.complete
  | layoutS {r : Derived} (h : layout s.bankS.request = .ok r) :
      CommandResult s .layoutS (State.complete { s with bankS := s.bankS.setLayout r })
  | layoutD {r : Derived} (h : layout s.bankD.request = .ok r) :
      CommandResult s .layoutD (State.complete { s with bankD := s.bankD.setLayout r })
  | copylayout {r : Derived} (h : layout { s.bankS.request with bufSize := s.bankD.bufSize.toNat } = .ok r) :
      CommandResult s .copylayout (State.complete { s with bankD := (s.bankD.setRequest s.bankS).setLayout r })
  | primitive (p : Prim) (hS : s.bankS.valid = true) (hD : s.bankD.valid = true)
      (hc : checkPrimitive p.primitive s.bankS.desc s.bankD.desc = none) (hmS : s.bankS.desc.inMemory = true)
      (hmD : s.bankD.desc.inMemory = true) :
      CommandResult s p.instr (s.doneWith (p.primitive.body s.bankS.desc s.bankD.desc s.mem))
  | convert {steps : List PlanStep} (h : convertPlan s = .ok steps)
      (hm : steps.length = 0 ∨ s.bankS.desc.inMemory = true) :
      CommandResult s .convert (State.complete (s.convertResult steps (runSteps s 0 s.bankS.desc steps s.mem)))

theorem execLayoutS_next {s t : State} (h : execLayoutS s = .next t) : CommandResult s .layoutS t := by
  unfold execLayoutS at h
  split at h
  · cases h
    exact .failed _ _ _
  · rename_i hl
    cases h
    exact .layoutS hl

theorem execLayoutD_next {s t : State} (h : execLayoutD s = .next t) : CommandResult s .layoutD t := by
  unfold execLayoutD at h
  split at h
  · cases h
    exact .failed _ _ _
  · rename_i hl
    cases h
    exact .layoutD hl

theorem execCopylayout_next {s t : State} (h : execCopylayout s = .next t) : CommandResult s .copylayout t := by
  unfold execCopylayout at h
  split at h
  · cases h
    exact .failed _ _ _
  · rename_i hl
    cases h
    exact .copylayout hl

theorem exec_prim_next {p : Prim} {s t : State} (h : exec p.instr s = .next t) : CommandResult s p.instr t := by
  rw [exec_prim] at h
  rcases runPrimitive_cases p.primitive s with ⟨-, e⟩ | ⟨c, -, -, -, e⟩ | ⟨hS, hD, hc, hmS, hmD, e⟩ | ⟨-, -, -, -, e⟩ <;>
    rw [e] at h <;> cases h
  · exact .failed _ _ _
  · exact .failed _ _ _
  · exact .primitive p hS hD hc hmS hmD

theorem execConvert_next {s t : State} (h : execConvert s = .next t) : CommandResult s .convert t := by
  rcases execConvert_cases s with ⟨c, g, -, e⟩ | ⟨steps, hp, hm, e⟩ | ⟨steps, -, -, e⟩ <;> rw [e] at h <;> cases h
  · exact .failed _ _ _
  · exact .convert hp hm

/-- Inversion of `exec`: a command that answers a next state leaves one of its results. -/
theorem exec_next {i : Instr} {s t : State} (h : exec i s = .next t) : CommandResult s i t := by
  cases i with
  | nop =>
    cases h
    exact .nop
  | layoutS => exact execLayoutS_next h
  | layoutD => exact execLayoutD_next h
  | copylayout => exact execCopylayout_next h
  | unpack10 => exact exec_prim_next (p := .unpack10) h
  | pack10 => exact exec_prim_next (p := .pack10) h
  | narrow => exact exec_prim_next (p := .narrow) h
  | widen => exact exec_prim_next (p := .widen) h
  | rescale16 => exact exec_prim_next (p := .rescale16) h
  | untile8 => exact exec_prim_next (p := .untile8) h
  | tile8 => exact exec_prim_next (p := .tile8) h
  | sp2p => exact exec_prim_next (p := .sp2p) h
  | p2sp => exact exec_prim_next (p := .p2sp) h
  | pk2p => exact exec_prim_next (p := .pk2p) h
  | p2pk => exact exec_prim_next (p := .p2pk) h
  | resample => exact exec_prim_next (p := .resample) h
  | rectcopy => exact exec_prim_next (p := .rectcopy) h
  | convert => exact execConvert_next h

/-! ### What a transaction and a step can leave -/

/-- Every state a transaction can leave from `s` (10_state.md R20, 20_memory.md R60, 70_reset_and_hazards.md R210). -/
inductive ServeResult (s : State) : Input → State → Prop
  | regRead {off width : Nat} {r : Reg} (h : Reg.ofAccess off width = some r) :
      ServeResult s (.regRead off width) (s.readReg r)
  | regWrite {off width : Nat} {r : Reg} (v : Word) (h : Reg.ofAccess off width = some r) :
      ServeResult s (.regWrite off width v) (s.writeReg r v)
  | memRead {a : Addr} (h : ¬s.engineOwns a.toNat = true) :
      ServeResult s (.memRead a) { s with memData := Memory.read s.mem a.toNat }
  | memWrite {a : Addr} (b : Byte) (h : ¬s.engineOwns a.toNat = true) :
      ServeResult s (.memWrite a b) { s with mem := Memory.write s.mem a.toNat b }
  | reset : ServeResult s .reset s.resetBlock

/-- Inversion of `State.serve`. -/
theorem serve_next {s t : State} {i : Input} (h : s.serve i = .next t) : ServeResult s i t := by
  cases i with
  | regRead off width =>
    simp only [State.serve] at h
    split at h <;> cases h
    exact .regRead ‹_›
  | regWrite off width v =>
    simp only [State.serve] at h
    split at h <;> cases h
    exact .regWrite v ‹_›
  | memRead a =>
    simp only [State.serve] at h
    split at h <;> cases h
    exact .memRead ‹_›
  | memWrite a b =>
    simp only [State.serve] at h
    split at h <;> cases h
    exact .memWrite b ‹_›
  | reset =>
    cases h
    exact .reset

/-- `s` with a transaction taken from the list, as `step_serve` hands it to `State.serve`: the interrupt line seen, one
step of time passed (logs 3, 6). -/
abbrev State.taken (s : State) (rest : List Input) : State :=
  { s with owned := if s.irq = true then [] else s.owned, wait := s.wait - 1, inputs := rest }

/-- Every state a step can leave from `s`. -/
inductive StepResult (s : State) : State → Prop
  | command {i : Instr} {t : State} (hrun : s.status.busy = true ∧ s.wait = 0) (hd : decode s.cmd = .ok i)
      (h : CommandResult s i t) : StepResult s t
  | illegal {e : Reject} (hrun : s.status.busy = true ∧ s.wait = 0) (hd : decode s.cmd = .error e) :
      StepResult s (s.raiseError .illegal .none)
  | idle (hrun : ¬(s.status.busy = true ∧ s.wait = 0)) (hi : s.inputs = []) : StepResult s s.tick
  | served {i : Input} {rest : List Input} {t : State} (hrun : ¬(s.status.busy = true ∧ s.wait = 0))
      (hi : s.inputs = i :: rest) (h : ServeResult (s.taken rest) i t) : StepResult s t

/-- Inversion of `step`: the running command, the passing of time, or one transaction. -/
theorem step_next {s t : State} (h : step s = .next t) : StepResult s t := by
  by_cases hrun : s.status.busy = true ∧ s.wait = 0
  · rw [step_running hrun.1 hrun.2] at h
    unfold runCommand at h
    split at h
    · rename_i hd
      exact .command hrun hd (exec_next h)
    · rename_i hd
      cases h
      exact .illegal hrun hd
  · rcases hi : s.inputs with _ | ⟨i, rest⟩
    · rw [step_serving hrun, serveNext_nil hi] at h
      cases h
      exact .idle hrun hi
    · rw [step_serve hrun hi] at h
      exact .served hrun hi (serve_next h)

end Sys2Proof.Machine
end

section
/-! PROOFS. The sizes of a layout, and what a layout stamped into a bank reads back as (10_state.md R40,
40_classifier_layout.md R105 to R115). -/

namespace Sys2Proof.Machine

/-! ### A layout fits its capacity -/

theorem ceilDiv_pos {a b : Nat} (ha : a ≠ 0) (hb : 0 < b) : 0 < ceilDiv a b :=
  Nat.div_pos (by omega) hb

/-- A legal tile is four rows high, at either depth (40_classifier_layout.md R110 check L10). -/
theorem Request.tileHeight_of_legal {r : Request} (h : r.geometryLegal = true) : r.th = 4 := by
  simp only [Request.geometryLegal, Bool.or_eq_true, Bool.and_eq_true, beq_iff_eq] at h
  omega

theorem Request.lumaRows_pos {r : Request} (h : layoutCheck r = none) : 0 < r.lumaRows := by
  obtain ⟨-, -, -, -, -, -, hheight, -, -, hgeo⟩ := layoutCheck_none h
  unfold Request.lumaRows
  split
  · rename_i ht
    exact ceilDiv_pos hheight (by rw [Request.tileHeight_of_legal (hgeo ht)]; decide)
  · omega

theorem Request.chromaRows_pos {r : Request} (h : layoutCheck r = none) : 0 < r.chromaRows := by
  obtain ⟨-, -, -, -, -, -, hheight, -, heven, -⟩ := layoutCheck_none h
  unfold Request.chromaRows
  split
  · rename_i h420
    have := heven h420
    omega
  · omega

theorem Request.lumaStride_le_size {r : Request} (h : layoutCheck r = none) : r.lumaStride ≤ r.lumaSize :=
  Nat.le_mul_of_pos_right _ (Request.lumaRows_pos h)

theorem Request.chromaStride_le_size {r : Request} (h : layoutCheck r = none) : r.chromaStride ≤ r.chromaSize := by
  obtain ⟨-, -, -, -, -, -, -, -, -, hgeo⟩ := layoutCheck_none h
  have hrows := Request.chromaRows_pos h
  unfold Request.chromaSize
  split
  · omega
  · split
    · rename_i ht
      exact Nat.le_mul_of_pos_right _ (ceilDiv_pos hrows.ne' (by rw [Request.tileHeight_of_legal (hgeo ht)]; decide))
    · exact Nat.le_mul_of_pos_right _ hrows

theorem Request.lumaSize_le_frame (r : Request) : r.lumaSize ≤ r.frameSize :=
  (Nat.le_add_right _ _).trans (Nat.le_max_left _ _)

/-- A supported format without chroma planes is monochrome or packed, and has no chroma stride. -/
theorem Request.chromaSize_of_noPlanes {r : Request} (hs : r.fmt.isSupported = true) (h : r.fmt.chromaPlanes = 0) :
    r.chromaSize = 0 := by
  have hno : (r.fmt.isMono || r.fmt.isPacked) = true := by
    cases hf : r.fmt <;> rw [hf] at hs h <;> revert hs h <;> decide
  simp [Request.chromaSize, Request.chromaStride, hno]

theorem Request.chromaSize_le_frame {r : Request} (h : layoutCheck r = none) : r.chromaSize ≤ r.frameSize := by
  obtain ⟨hsup, -⟩ := layoutCheck_none h
  rcases Nat.eq_zero_or_pos r.fmt.chromaPlanes with h0 | hpos
  · rw [Request.chromaSize_of_noPlanes hsup h0]
    exact Nat.zero_le _
  · calc r.chromaSize ≤ r.fmt.chromaPlanes * r.chromaSize := Nat.le_mul_of_pos_left _ hpos
      _ ≤ r.lumaSize + r.fmt.chromaPlanes * r.chromaSize := Nat.le_add_left _ _
      _ ≤ r.frameSize := Nat.le_max_left _ _

/-- All five derived fields are values of a 32-bit register (10_state.md R37). -/
structure Derived.Fits (d : Derived) : Prop where
  yStride : d.yStride < 2 ^ 32
  uvStride : d.uvStride < 2 ^ 32
  ySize : d.ySize < 2 ^ 32
  uvSize : d.uvSize < 2 ^ 32
  ioSize : d.ioSize < 2 ^ 32

/-- The capacity check bounds every derived field: no stride and no size is cut when it is stored
(40_classifier_layout.md R112, R115). -/
theorem Derived.fits_of_layout {r : Request} {d : Derived} (h : layout r = .ok d) (hcap : r.bufSize < 2 ^ 32) :
    d.Fits := by
  obtain ⟨hc, hbuf, rfl⟩ := layout_ok h
  have hframe : r.frameSize < 2 ^ 32 := by omega
  have hluma := Request.lumaSize_le_frame r
  have hchroma := Request.chromaSize_le_frame hc
  exact ⟨((Request.lumaStride_le_size hc).trans hluma).trans_lt hframe,
    ((Request.chromaStride_le_size hc).trans hchroma).trans_lt hframe, hluma.trans_lt hframe, hchroma.trans_lt hframe,
    hframe⟩

/-! ### A layout stamped into a bank -/

@[simp] theorem Bank.setLayout_request (b : Bank) (r : Derived) : (b.setLayout r).request = b.request := rfl

@[simp] theorem Bank.setRequest_request (b b' : Bank) :
    (b.setRequest b').request = { b'.request with bufSize := b.bufSize.toNat } := rfl

theorem Bank.setLayout_derived (b : Bank) {r : Derived} (h : r.Fits) : (b.setLayout r).derived = r := by
  obtain ⟨h1, h2, h3, h4, h5⟩ := h
  simp only [Bank.setLayout, Bank.derived, BitVec.toNat_ofNat, Nat.mod_eq_of_lt, h1, h2, h3, h4, h5]

/-- A bank is sound after the layout of its own request is stamped into it (40_classifier_layout.md R115, R116). -/
theorem Bank.sound_setLayout {b : Bank} {r : Derived} (h : layout b.request = .ok r) : (b.setLayout r).sound = true := by
  apply Bank.sound_of_layout
  rw [Bank.setLayout_request, Bank.setLayout_derived b (Derived.fits_of_layout h b.bufSize.isLt)]
  exact h

@[simp] theorem Bank.sound_reset : Bank.reset.sound = true := rfl

/-! ### A host write to a bank -/

/-- The slots whose write clears `VALID`: the request fields and `BUF_SIZE` (10_state.md R42). -/
def BankSlot.clearsValid : BankSlot → Bool
  | .width | .height | .format | .tile | .reqStride | .reqIosize | .bufSize => true
  | .yStride | .uvStride | .ySize | .uvSize | .ioSize | .base | .valid | .reserved => false

theorem BankSlot.clearsValid_iff (f : BankSlot) :
    f.clearsValid = true ↔ f ∈ [width, height, format, tile, reqStride, reqIosize, bufSize] := by
  cases f <;> decide

theorem BankSlot.clearsValid_eq_false_iff (f : BankSlot) :
    f.clearsValid = false ↔ f ∈ [yStride, uvStride, ySize, uvSize, ioSize, base, valid, reserved] := by
  cases f <;> decide

theorem Bank.writeSlot_valid (b : Bank) (f : BankSlot) (v : Word) :
    (b.writeSlot f v).valid = (b.valid && !f.clearsValid) := by
  cases f <;> simp [Bank.writeSlot, BankSlot.clearsValid]

/-- A write that keeps `VALID` leaves the request and the derived fields alone; `BASE` is in neither. -/
theorem Bank.writeSlot_layout (b : Bank) {f : BankSlot} (v : Word) (h : f.clearsValid = false) :
    (b.writeSlot f v).request = b.request ∧ (b.writeSlot f v).derived = b.derived := by
  revert h
  cases f <;> simp [BankSlot.clearsValid, Bank.writeSlot, Bank.request, Bank.derived]

theorem Bank.sound_writeSlot {b : Bank} (h : b.sound = true) (f : BankSlot) (v : Word) :
    (b.writeSlot f v).sound = true := by
  have hv := Bank.writeSlot_valid b f v
  cases hf : f.clearsValid with
  | true => exact Bank.sound_of_invalid (by simp [hv, hf])
  | false =>
    obtain ⟨hr, hd⟩ := Bank.writeSlot_layout b v hf
    rw [Bank.sound, hv, hr, hd, hf, Bool.not_false, Bool.and_true]
    exact h

/-! ### The banks after a transaction -/

theorem State.writeReg_of_busy {s : State} (h : s.status.busy = true) (r : Reg) (v : Word) :
    s.writeReg r v = if r = .irqEn then { s with irqEn := IrqEn.ofWord v } else s := by
  simp [State.writeReg, h]

theorem State.writeReg_of_idle {s : State} (h : s.status.busy = false) (r : Reg) (v : Word) :
    s.writeReg r v = s.writeIdle r v := by
  simp [State.writeReg, h]

@[simp] theorem State.writeCmd_bank (s : State) (w : Word) (b : BankId) : (s.writeCmd w).bank b = s.bank b := by
  unfold State.writeCmd
  split <;> rfl

/-- A register write changes a bank only as a write to one of the bank's own slots, and never bank `W`
(10_state.md R28, R41). -/
theorem State.writeReg_bank (s : State) (r : Reg) (v : Word) (b : BankId) :
    (s.writeReg r v).bank b = s.bank b ∨
      b ≠ .w ∧ ∃ f, r = .bank b f ∧ (s.writeReg r v).bank b = (s.bank b).writeSlot f v := by
  cases hb : s.status.busy with
  | true =>
    left
    rw [State.writeReg_of_busy hb]
    split <;> rfl
  | false =>
    rw [State.writeReg_of_idle hb]
    cases r with
    | bank b' f => cases b' <;> cases b <;> simp [State.writeIdle, State.bank]
    | cmd => exact .inl (s.writeCmd_bank v b)
    | _ => exact .inl rfl

@[simp] theorem State.readReg_bank (s : State) (r : Reg) (b : BankId) : (s.readReg r).bank b = s.bank b := by
  rw [State.readReg_eq]
  rfl

@[simp] theorem State.resetBlock_bank (s : State) (b : BankId) : s.resetBlock.bank b = Bank.reset := by
  cases b <;> rfl

/-- Every transaction keeps every bank sound. -/
theorem ServeResult.keeps_sound {s t : State} {i : Input} (h : ServeResult s i t) {b : BankId}
    (hb : (s.bank b).sound = true) : (t.bank b).sound = true := by
  cases h with
  | regRead => rwa [State.readReg_bank]
  | regWrite v =>
    rcases s.writeReg_bank _ v b with e | ⟨-, f, -, e⟩
    · rwa [e]
    · rw [e]
      exact Bank.sound_writeSlot hb f v
  | memRead => exact hb
  | memWrite => exact hb
  | reset => rw [State.resetBlock_bank, Bank.sound_reset]

/-- A bank that every command keeps sound is kept sound by every step. -/
theorem StepResult.keeps_sound {s t : State} (h : StepResult s t) {b : BankId} (hb : (s.bank b).sound = true)
    (hcommand : ∀ i, CommandResult s i t → (t.bank b).sound = true) : (t.bank b).sound = true := by
  cases h with
  | command _ _ h => exact hcommand _ h
  | illegal => exact hb
  | idle => exact hb
  | served _ _ h => exact h.keeps_sound hb

/-! ### Banks `S` and `D` -/

theorem CommandResult.keeps_bankS_sound {s t : State} {i : Instr} (h : CommandResult s i t)
    (hS : s.bankS.sound = true) : t.bankS.sound = true := by
  cases h with
  | layoutS hl => exact Bank.sound_setLayout hl
  | _ => exact hS

theorem CommandResult.keeps_bankD_sound {s t : State} {i : Instr} (h : CommandResult s i t)
    (hD : s.bankD.sound = true) : t.bankD.sound = true := by
  cases h with
  | layoutD hl => exact Bank.sound_setLayout hl
  | copylayout hl => exact Bank.sound_setLayout (by rwa [Bank.setRequest_request])
  | _ => exact hD

/-- Settles O20: only the layout commands and host writes touch `S` and `D`, and each leaves a laid-out bank or
`VALID = 0`. -/
theorem stepKeepsOperandBanksSound : Obligations.StepKeepsOperandBanksSound := by
  rintro s t ⟨hS, hD⟩ h
  exact ⟨(step_next h).keeps_sound (b := .s) hS fun _ hc => hc.keeps_bankS_sound hS,
    (step_next h).keeps_sound (b := .d) hD fun _ hc => hc.keeps_bankD_sound hD⟩

end Sys2Proof.Machine
end

section
/-! PROOFS. What planning can build: every plan is a chain of laid-out descriptors (43_orchestrator.md R173), so bank `W`
holds the layout of its own request (R180). -/

namespace Sys2Proof.Machine

/-! ### Planning as a chain of added steps -/

/-- The requests planning makes from the working descriptor: an intermediate raster frame, the re-tiled or re-packed
frame of stage S4, and the destination's own request (43_orchestrator.md R173). -/
inductive PlanRequest (g : PlanGoal) (cur : Desc) : Request → Prop
  | raster (fmt : PixelFormat) (nbit nlsb : Nat) : PlanRequest g cur (rasterRequest cur fmt nbit nlsb)
  | retiled (nbit : Nat) (tiled : Bool) : PlanRequest g cur (tiledRequest cur g.dst nbit tiled)
  | relayout : PlanRequest g cur g.dst.toRequest

/-- `q` is `p` with one more step. -/
def Planner.Extends (g : PlanGoal) (p q : Planner) : Prop :=
  ∃ stage op r, PlanRequest g p.cur r ∧ p.addStep g stage op r = .ok q

/-- `q` is `p` with any number of steps more. -/
abbrev Planner.Reaches (g : PlanGoal) : Planner → Planner → Prop := Relation.ReflTransGen (Planner.Extends g)

theorem PlanResult.bind_ok {x : PlanResult} {f : Planner → PlanResult} {q : Planner} (h : x.bind f = .ok q) :
    ∃ p, x = .ok p ∧ f p = .ok q := by
  cases x with
  | error e => cases h
  | ok p => exact ⟨p, rfl, h⟩

section
variable {g : PlanGoal} {p q : Planner}

theorem Planner.reaches_addStep {stage : Stage} {op : Prim} {r : Request} (hr : PlanRequest g p.cur r)
    (h : p.addStep g stage op r = .ok q) : Planner.Reaches g p q :=
  .single ⟨stage, op, r, hr, h⟩

theorem Planner.reaches_ok (h : (Except.ok p : PlanResult) = .ok q) : Planner.Reaches g p q := by
  cases h
  exact .refl

theorem planS1_reaches (h : planS1 g p = .ok q) : Planner.Reaches g p q := by
  unfold planS1 at h
  split at h
  · exact Planner.reaches_addStep (.raster _ _ _) h
  · split at h
    · exact Planner.reaches_addStep (.raster _ _ _) h
    · exact Planner.reaches_ok h

theorem planS2_reaches (h : planS2 g p = .ok q) : Planner.Reaches g p q := by
  unfold planS2 at h
  split at h
  · split at h
    · cases h
    · exact Planner.reaches_addStep (.raster _ _ _) h
  · split at h
    · split at h
      · cases h
      · exact Planner.reaches_addStep (.raster _ _ _) h
    · split at h
      · exact Planner.reaches_addStep (.raster _ _ _) h
      · exact Planner.reaches_ok h

theorem planS3a_reaches (h : planS3a g p = .ok q) : Planner.Reaches g p q := by
  unfold planS3a at h
  split at h
  · exact Planner.reaches_addStep (.raster _ _ _) h
  · exact Planner.reaches_ok h

theorem planS3b_reaches (h : planS3b g p = .ok q) : Planner.Reaches g p q := by
  unfold planS3b at h
  split at h
  · exact Planner.reaches_addStep (.raster _ _ _) h
  · exact Planner.reaches_ok h

theorem planS3c_reaches (h : planS3c g p = .ok q) : Planner.Reaches g p q := by
  unfold planS3c at h
  split at h
  · exact Planner.reaches_addStep (.raster _ _ _) h
  · exact Planner.reaches_ok h

theorem planS3_reaches (h : planS3 g p = .ok q) : Planner.Reaches g p q := by
  unfold planS3 at h
  split at h
  · obtain ⟨p₂, h, hc⟩ := PlanResult.bind_ok h
    obtain ⟨p₁, ha, hb⟩ := PlanResult.bind_ok h
    exact ((planS3a_reaches ha).trans (planS3b_reaches hb)).trans (planS3c_reaches hc)
  · exact Planner.reaches_ok h

theorem planS4_reaches (h : planS4 g p = .ok q) : Planner.Reaches g p q := by
  unfold planS4 at h
  split at h
  · exact Planner.reaches_addStep (.retiled _ _) h
  · split at h
    · exact Planner.reaches_addStep (.retiled _ _) h
    · exact Planner.reaches_ok h

theorem planS5_reaches (h : planS5 g p = .ok q) : Planner.Reaches g p q := by
  unfold planS5 at h
  split at h
  · exact Planner.reaches_addStep .relayout h
  · exact Planner.reaches_ok h

theorem planStages_reaches (h : planStages g p = .ok q) : Planner.Reaches g p q := by
  obtain ⟨p₃, h, h4⟩ := PlanResult.bind_ok h
  obtain ⟨p₂, h, h3⟩ := PlanResult.bind_ok h
  obtain ⟨p₁, h1, h2⟩ := PlanResult.bind_ok h
  exact (((planS1_reaches h1).trans (planS2_reaches h2)).trans (planS3_reaches h3)).trans (planS4_reaches h4)

/-- Every plan is reached from the empty one, so what each added step keeps holds of every plan. -/
theorem plan_reaches {s : Desc} (h : plan s g = .ok q) : Planner.Reaches g { steps := [], cur := s } q := by
  obtain ⟨p, h, h5⟩ := PlanResult.bind_ok h
  refine .trans ?_ (planS5_reaches h5)
  split at h
  · exact planStages_reaches h
  · exact Planner.reaches_ok h

end

/-! ### Laid-out descriptors -/

/-- The fields of a request that the layout does not bound are values of their registers (10_state.md R31 to R39). -/
structure Request.Fits (r : Request) : Prop where
  width : r.width < 2 ^ 16
  height : r.height < 2 ^ 16
  tw : r.tw < 2 ^ 8
  th : r.th < 2 ^ 8
  tsz : r.tsz < 2 ^ 16
  reqStride : r.reqStride < 2 ^ 32
  reqIosize : r.reqIosize < 2 ^ 32
  bufSize : r.bufSize < 2 ^ 32

theorem Bank.request_fits (b : Bank) : b.request.Fits :=
  ⟨b.width.isLt, b.height.isLt, b.tw.isLt, b.th.isLt, b.tsz.isLt, b.reqStride.isLt, b.reqIosize.isLt, b.bufSize.isLt⟩

/-- A descriptor that fits a bank and holds the layout of its own request. -/
structure Desc.Laid (d : Desc) : Prop where
  fits : d.toRequest.Fits
  layout : layout d.toRequest = .ok d.toDerived

theorem Bank.desc_laid {b : Bank} (h : b.sound = true) (hv : b.valid = true) : b.desc.Laid :=
  ⟨b.request_fits, Bank.sound_layout h hv⟩

theorem Desc.Laid.setBase {d : Desc} (h : d.Laid) (a : Nat) : Desc.Laid { d with base := a } := ⟨h.fits, h.layout⟩

@[simp] theorem PixelFormat.ofCode_code (f : PixelFormat) : PixelFormat.ofCode f.code = f := by
  cases f <;> rfl

theorem Bank.ofDesc_request {d : Desc} (h : d.Laid) : (Bank.ofDesc d).request = d.toRequest := by
  obtain ⟨hw, hh, htw, hth, htsz, hrs, hri, hbuf⟩ := h.fits
  obtain ⟨-, hnbit, hnlsb, -⟩ := layoutCheck_none (layout_ok h.layout).1
  have hn : d.nbit < 2 ^ 5 := by omega
  have hl : d.nlsb < 2 ^ 5 := by omega
  simp only [Bank.ofDesc, Bank.request, BitVec.toNat_ofNat, PixelFormat.ofCode_code, Nat.mod_eq_of_lt, hw, hh, hn, hl,
    htw, hth, htsz, hrs, hri, hbuf]

theorem Bank.ofDesc_derived {d : Desc} (h : d.Laid) : (Bank.ofDesc d).derived = d.toDerived := by
  obtain ⟨h1, h2, h3, h4, h5⟩ := Derived.fits_of_layout h.layout h.fits.bufSize
  simp only [Bank.ofDesc, Bank.derived, BitVec.toNat_ofNat, Nat.mod_eq_of_lt, h1, h2, h3, h4, h5]

/-- A laid-out descriptor written to a bank makes a sound bank. -/
theorem Bank.sound_ofDesc {d : Desc} (h : d.Laid) : (Bank.ofDesc d).sound = true := by
  apply Bank.sound_of_layout
  rw [Bank.ofDesc_request h, Bank.ofDesc_derived h]
  exact h.layout

/-! ### Every plan is laid out -/

/-- The planner's invariant: the working descriptor and every step's output are laid out. -/
structure Planner.Laid (p : Planner) : Prop where
  cur : p.cur.Laid
  steps : ∀ x ∈ p.steps, x.next.Laid

/-- The fixed inputs of planning are values of registers. -/
structure PlanGoal.Fits (g : PlanGoal) : Prop where
  dst : g.dst.toRequest.Fits
  cap0 : g.cap0 < 2 ^ 32
  cap1 : g.cap1 < 2 ^ 32

theorem Planner.capacity_lt {g : PlanGoal} (hg : g.Fits) (p : Planner) : p.capacity g < 2 ^ 32 := by
  unfold Planner.capacity
  split
  · exact hg.cap0
  · exact hg.cap1

theorem PlanRequest.fits {g : PlanGoal} {cur : Desc} {r : Request} (h : PlanRequest g cur r) (hg : g.Fits)
    (hcur : cur.toRequest.Fits) {cap : Nat} (hcap : cap < 2 ^ 32) : Request.Fits { r with bufSize := cap } := by
  have hd := hg.dst
  cases h with
  | raster =>
    exact ⟨hcur.width, hcur.height, Nat.two_pow_pos 8, Nat.two_pow_pos 8, Nat.two_pow_pos 16, Nat.two_pow_pos 32,
      Nat.two_pow_pos 32, hcap⟩
  | retiled =>
    exact ⟨hcur.width, hcur.height, hd.tw, hd.th, hd.tsz, Nat.two_pow_pos 32, Nat.two_pow_pos 32, hcap⟩
  | relayout => exact { hd with bufSize := hcap }

theorem Planner.Extends.laid {g : PlanGoal} {p q : Planner} (h : Planner.Extends g p q) (hg : g.Fits) (hp : p.Laid) :
    q.Laid := by
  obtain ⟨stage, op, r, hr, hadd⟩ := h
  obtain ⟨der, hl, hcur, hsteps⟩ := addStep_ok hadd
  have hq : q.cur.Laid := by
    rw [hcur]
    exact ⟨hr.fits hg hp.cur.fits (p.capacity_lt hg), hl⟩
  refine ⟨hq, fun x hx => ?_⟩
  rw [hsteps, List.mem_append, List.mem_singleton] at hx
  rcases hx with hx | rfl
  · exact hp.steps x hx
  · exact hq

theorem Planner.Reaches.laid {g : PlanGoal} {p q : Planner} (h : Planner.Reaches g p q) (hg : g.Fits) (hp : p.Laid) :
    q.Laid := by
  induction h with
  | refl => exact hp
  | tail _ hx ih => exact hx.laid hg ih

theorem plan_laid {s : Desc} {g : PlanGoal} {p : Planner} (h : plan s g = .ok p) (hg : g.Fits) (hs : s.Laid) :
    p.Laid :=
  (plan_reaches h).laid hg ⟨hs, by simp⟩

/-- If phase 1 succeeds, all its checks passed and its steps are a plan's (43_orchestrator.md R175). -/
theorem convertPlan_ok {s : State} {steps : List PlanStep} (h : convertPlan s = .ok steps) :
    s.bankS.valid = true ∧ s.bankD.valid = true ∧ s.bankS.desc.fmt.isMono = s.bankD.desc.fmt.isMono ∧
      s.bankS.desc.width = s.bankD.desc.width ∧ s.bankS.desc.height = s.bankD.desc.height ∧
      (∀ r ∈ s.convertRegions steps.length, r.inMemory = true) ∧ anyOverlap (s.convertRegions steps.length) = false ∧
      ∃ p, p.steps = steps ∧
        plan s.bankS.desc { dst := s.bankD.desc, cap0 := s.scr0Cap.toNat, cap1 := s.scr1Cap.toNat } = .ok p := by
  unfold convertPlan at h
  repeat' split at h
  all_goals cases h
  rename_i hvalid hmono hshape _ p hplan hmem hover
  obtain ⟨hS, hD⟩ : s.bankS.valid = true ∧ s.bankD.valid = true := by simpa using hvalid
  obtain ⟨hw, hh⟩ := not_or.mp hshape
  exact ⟨hS, hD, by simpa using hmono, not_not.mp hw, not_not.mp hh, by simpa using hmem, by simpa using hover, p, rfl,
    hplan⟩

theorem convertPlan_laid {s : State} {steps : List PlanStep} (h : convertPlan s = .ok steps)
    (hS : s.bankS.sound = true) : s.bankS.desc.Laid ∧ ∀ x ∈ steps, x.next.Laid := by
  obtain ⟨hvS, -, -, -, -, -, -, p, rfl, hp⟩ := convertPlan_ok h
  have hs := Bank.desc_laid hS hvS
  exact ⟨hs, (plan_laid hp ⟨s.bankD.request_fits, s.scr0Cap.isLt, s.scr1Cap.isLt⟩ hs).steps⟩

/-- Running laid-out steps from a laid-out frame ends in one. -/
theorem runSteps_laid {st : State} {steps : List PlanStep} (hsteps : ∀ x ∈ steps, x.next.Laid) {k : Nat} {cur : Desc}
    (hcur : cur.Laid) (m : Memory) : (runSteps st k cur steps m).2.Laid := by
  induction steps generalizing k cur m with
  | nil => exact hcur
  | cons x rest ih =>
    obtain ⟨hx, hrest⟩ := List.forall_mem_cons.mp hsteps
    exact ih hrest (hx.setBase _) _

/-! ### Bank `W` -/

theorem CommandResult.keeps_bankW_sound {s t : State} {i : Instr} (h : CommandResult s i t)
    (hS : s.bankS.sound = true) (hW : s.bankW.sound = true) : t.bankW.sound = true := by
  cases h with
  | convert hp =>
    obtain ⟨hs, hsteps⟩ := convertPlan_laid hp hS
    rw [State.complete_bankW, State.convertResult_bankW]
    split
    · exact hS
    · exact Bank.sound_ofDesc (runSteps_laid hsteps hs _)
  | _ => exact hW

/-- Settles O21: `CONVERT` alone writes bank `W`, either with a copy of `S` or with the last descriptor of its plan. -/
theorem stepKeepsResultBankSound : Obligations.StepKeepsResultBankSound := by
  rintro s t ⟨hS, -⟩ hW h
  exact (step_next h).keeps_sound (b := .w) hW fun _ hc => hc.keeps_bankW_sound hS hW

end Sys2Proof.Machine
end

section
/-! PROOFS. The register port: which register a transaction reaches, and what its step leaves (10_state.md R20 to R50). -/

namespace Sys2Proof.Machine

/-! ### The register of a transaction -/

/-- No register answers an access that is misaligned, past the map or not 32 bits wide (10_state.md R20; log 13). -/
theorem Reg.ofAccess_eq_none {off width : Nat} (h : off % 4 ≠ 0 ∨ 0x0FC < off ∨ width ≠ 32) :
    Reg.ofAccess off width = none := by
  have hno : ¬portAccessOk off width = true := by
    simp only [portAccessOk, offsetAligned, offsetInMap, widthIs32, Bool.and_eq_true, beq_iff_eq, Nat.ble_eq]
    omega
  rw [Reg.ofAccess, if_neg hno]

section
variable {s : State} {off width : Nat} {r : Reg}

theorem State.serve_regRead (h : Reg.ofAccess off width = some r) : s.serve (.regRead off width) = .next (s.readReg r) := by
  simp only [State.serve, h]

theorem State.serve_regWrite (h : Reg.ofAccess off width = some r) (v : Word) :
    s.serve (.regWrite off width v) = .next (s.writeReg r v) := by
  simp only [State.serve, h]

theorem State.serve_regRead_refused (h : Reg.ofAccess off width = none) :
    s.serve (.regRead off width) = .refused .registerAccess := by
  simp only [State.serve, h]

theorem State.serve_regWrite_refused (h : Reg.ofAccess off width = none) (v : Word) :
    s.serve (.regWrite off width v) = .refused .registerAccess := by
  simp only [State.serve, h]

end

/-! ### Registers do not see the fields `State.taken` sets -/

@[simp] theorem State.taken_regValue (s : State) (rest : List Input) (r : Reg) :
    (s.taken rest).regValue r = s.regValue r := rfl

/-- A read of the transaction taken: the value, and the regions given back by the interrupt line or by a `STATUS` read
that returns `BUSY = 0` (20_memory.md R73, R75; log 6). -/
theorem State.taken_readReg (s : State) (rest : List Input) (r : Reg) :
    (s.taken rest).readReg r =
      { s with
        regData := s.regValue r
        owned := if s.irq = true ∨ (r = .status ∧ s.status.busy = false) then [] else s.owned
        wait := s.wait - 1
        inputs := rest } := by
  by_cases hacq : r = .status ∧ s.status.busy = false
  · simp [State.readReg, State.acquireOnRead, hacq]
  · simp [State.readReg, State.acquireOnRead, hacq]

/-- A write but to `CMD` commutes with taking the transaction: only an accepted command sets `owned` and `wait`
itself. -/
theorem State.taken_writeReg (s : State) (rest : List Input) {r : Reg} (v : Word) (h : r ≠ .cmd) :
    (s.taken rest).writeReg r v =
      { s.writeReg r v with
        owned := if s.irq = true then [] else s.owned
        wait := s.wait - 1
        inputs := rest } := by
  cases hb : s.status.busy with
  | true =>
    rw [State.writeReg_of_busy (s := s.taken rest) hb, State.writeReg_of_busy hb]
    split <;> rfl
  | false =>
    rw [State.writeReg_of_idle (s := s.taken rest) hb, State.writeReg_of_idle hb]
    cases r with
    | bank b f => cases b <;> rfl
    | cmd => exact absurd rfl h
    | _ => rfl

/-! ### A step that serves a register transaction -/

section
variable {s : State} {off : Nat} {r : Reg} {rest : List Input}

theorem step_regRead (hrun : ¬(s.status.busy = true ∧ s.wait = 0)) (hr : (off, r) ∈ registerMap)
    (hi : s.inputs = .regRead off 32 :: rest) :
    step s = .next { s with
      regData := s.regValue r
      owned := if s.irq = true ∨ (r = .status ∧ s.status.busy = false) then [] else s.owned
      wait := s.wait - 1
      inputs := rest } := by
  rw [step_serve hrun hi, State.serve_regRead (Reg.ofAccess_of_registerMap hr), State.taken_readReg]

theorem step_regWrite (hrun : ¬(s.status.busy = true ∧ s.wait = 0)) (hr : (off, r) ∈ registerMap) (hcmd : r ≠ .cmd)
    {v : Word} (hi : s.inputs = .regWrite off 32 v :: rest) :
    step s = .next { s.writeReg r v with
      owned := if s.irq = true then [] else s.owned
      wait := s.wait - 1
      inputs := rest } := by
  rw [step_serve hrun hi, State.serve_regWrite (Reg.ofAccess_of_registerMap hr), State.taken_writeReg s rest v hcmd]

end

/-- Settles O13: the access check for the refusals, the register map for the rest. -/
theorem offMapAccessRefused : Obligations.OffMapAccessRefused := by
  intro s off width v rest hrun
  refine ⟨fun hbad => ⟨fun hi => ?_, fun hi => ?_⟩, fun r hr => ⟨step_regRead hrun hr, ?_⟩⟩
  · rw [step_serve hrun hi, State.serve_regRead_refused (Reg.ofAccess_eq_none hbad)]
  · rw [step_serve hrun hi, State.serve_regWrite_refused (Reg.ofAccess_eq_none hbad)]
  · exact fun hi hcmd => step_regWrite hrun hr hcmd hi

/-- A command whose `T_CMD` is over runs in the step (10_state.md R45). -/
theorem step_runs_command {s : State} {i : Instr} (hb : s.status.busy = true) (hw : s.wait = 0)
    (hd : decode s.cmd = .ok i) : step s = exec i s := by
  rw [step_running hb hw, runCommand, hd]

theorem decode_of_decodeTableWord {nbits w : Nat} {i : Instr} (h : decodeTableWord nbits w = some i) :
    decode (tableWord nbits w) = .ok i := by
  unfold decodeTableWord at h
  split at h
  · rename_i hd
    rw [hd, Option.some.inj h]
  · cases h

/-- Settles O5: what runs is the instruction the decoder reads from `CMD`, and `withFetchWord` puts the word there. -/
theorem stepRunsDecodedCommand : Obligations.StepRunsDecodedCommand :=
  ⟨fun _ _ hb hw hd _ => step_runs_command hb hw hd,
    fun _ _ _ _ h => step_runs_command rfl rfl (decode_of_decodeTableWord h)⟩

/-- Settles O8: a write to `CMD` while `BUSY = 1` is dropped like every other, so no case is left to acceptance. -/
theorem busyWritesDropped : Obligations.BusyWritesDropped := by
  rintro s off r v rest held hb hw hr rfl
  have hrun : ¬(s.status.busy = true ∧ s.wait = 0) := fun h => hw h.2
  have hwrite (hi : s.inputs = .regWrite off 32 v :: rest) : step s = .next ((s.taken rest).writeReg r v) := by
    rw [step_serve hrun hi, State.serve_regWrite (Reg.ofAccess_of_registerMap hr)]
  refine ⟨fun hi hne => ?_, fun hi he => ?_, fun hi => ?_⟩
  · rw [hwrite hi, State.writeReg_of_busy (s := s.taken rest) hb, if_neg hne]
  · rw [hwrite hi, State.writeReg_of_busy (s := s.taken rest) hb, if_pos he]
    rfl
  · rw [step_regRead hrun hr hi]
    simp [hb]

/-- Settles O10: `VALID` after a slot write is `Bank.writeSlot_valid`; the other bank is not written. -/
theorem requestWriteClearsValid : Obligations.RequestWriteClearsValid := by
  intro s f v hb
  have hS : s.writeReg (.bank .s f) v = { s with bankS := s.bankS.writeSlot f v } := State.writeReg_of_idle hb _ _
  have hD : s.writeReg (.bank .d f) v = { s with bankD := s.bankD.writeSlot f v } := State.writeReg_of_idle hb _ _
  rw [hS, hD]
  simp only [Bank.writeSlot_valid, true_and, and_true]
  refine ⟨fun hf => ?_, fun hf => ?_⟩
  · simp [f.clearsValid_iff.mpr hf]
  · simp [f.clearsValid_eq_false_iff.mpr hf]

/-! ### The reset state -/

@[simp] theorem Bank.reset_readSlot (f : BankSlot) : Bank.reset.readSlot f = 0#32 := by
  cases f <;> rfl

@[simp] theorem State.reset_bank (b : BankId) : State.reset.bank b = Bank.reset := by
  cases b <;> rfl

/-- Settles O15, register by register; a bank reads as `Bank.reset`. -/
theorem resetLeavesStatedValues : Obligations.ResetLeavesStatedValues := by
  refine ⟨fun r => ?_, rfl⟩
  cases r with
  | bank b f => simp [State.regValue]
  | _ => rfl

end Sys2Proof.Machine
end

section
/-! PROOFS. Where a laid-out frame keeps its bytes: its planes one after another, their storage rows one after another
inside a plane (20_memory.md R67 to R71, 40_classifier_layout.md R113, 42_remapper.md R157). -/

namespace Sys2Proof.Machine

theorem ceilDiv_le_iff {a b q : Nat} (hb : 0 < b) : ceilDiv a b ≤ q ↔ a ≤ q * b := by
  unfold ceilDiv
  rw [Nat.div_le_iff_le_mul_add_pred hb, mul_comm]
  omega

theorem lt_ceilDiv_iff {a b q : Nat} (hb : 0 < b) : q < ceilDiv a b ↔ q * b < a := by
  have := ceilDiv_le_iff (a := a) (q := q) hb
  omega

/-! ### The planes of a frame -/

/-- `planes(d)[0].ws`, samples in a luma row (20_memory.md R67). -/
def Request.lumaWidth (r : Request) : Nat := if r.fmt.isPacked then 2 * r.width else r.width

/-- `planes(d)[i].ws` for `i > 0`, samples in a chroma row (20_memory.md R67). -/
def Request.chromaWidth (r : Request) : Nat := if r.fmt.isSemiplanar then r.width else r.width / 2

/-- Every supported frame is a luma plane and `nch` chroma planes, all alike (20_memory.md R67). -/
theorem planes_eq {d : Desc} (h : d.fmt.isSupported = true) :
    planes d = { off := 0, stride := d.yStride, ws := d.lumaWidth, rows := d.height } ::
      (List.range d.fmt.chromaPlanes).map fun i =>
        { off := d.ySize + i * d.uvSize, stride := d.uvStride, ws := d.chromaWidth, rows := d.chromaRows } := by
  unfold planes Request.lumaWidth Request.chromaWidth
  cases hf : d.fmt with
  | funsup => rw [hf] at h; cases h
  | _ => simp [PixelFormat.chromaPlanes, PixelFormat.isPlanar, PixelFormat.isSemiplanar, PixelFormat.isPacked,
      List.range_succ]

theorem planes_length {d : Desc} (h : d.fmt.isSupported = true) : (planes d).length = d.fmt.chromaPlanes + 1 := by
  simp [planes_eq h]

theorem plane_zero {d : Desc} (h : d.fmt.isSupported = true) :
    plane d 0 = { off := 0, stride := d.yStride, ws := d.lumaWidth, rows := d.height } := by
  simp [plane, planes_eq h]

theorem plane_succ {d : Desc} (h : d.fmt.isSupported = true) {i : Nat} (hi : i < d.fmt.chromaPlanes) :
    plane d (i + 1) =
      { off := d.ySize + i * d.uvSize, stride := d.uvStride, ws := d.chromaWidth, rows := d.chromaRows } := by
  simp [plane, planes_eq h, hi]

theorem PixelFormat.not_mono_packed_of_chromaPlanes {f : PixelFormat} (h : 0 < f.chromaPlanes) :
    f.isMono = false ∧ f.isPacked = false := by
  revert h
  cases f <;> decide

theorem plane_chroma {d : Desc} (h : d.fmt.isSupported = true) {i : Nat} (h0 : i ≠ 0) (hi : i ≤ d.fmt.chromaPlanes) :
    (plane d i).ws = d.chromaWidth ∧ (plane d i).rows = d.chromaRows := by
  obtain ⟨j, rfl⟩ := Nat.exists_eq_succ_of_ne_zero h0
  simp [plane_succ h (Nat.lt_of_succ_le hi)]

/-- Two frames of one format and one size have the same samples, whatever their strides. -/
theorem planes_sameShape {s d : Desc} (hs : s.fmt.isSupported = true) (hf : s.fmt = d.fmt) (hw : s.width = d.width)
    (hh : s.height = d.height) :
    (planes s).length = (planes d).length ∧
      ∀ i, i < (planes d).length → (plane s i).ws = (plane d i).ws ∧ (plane s i).rows = (plane d i).rows := by
  have hd : d.fmt.isSupported = true := hf ▸ hs
  refine ⟨by rw [planes_length hs, planes_length hd, hf], fun i hi => ?_⟩
  rw [planes_length hd] at hi
  cases i with
  | zero => simp [plane_zero hs, plane_zero hd, Request.lumaWidth, hf, hw, hh]
  | succ i =>
    have hi : i < d.fmt.chromaPlanes := by omega
    simp [plane_succ hs (hf ▸ hi), plane_succ hd hi, Request.chromaWidth, Request.chromaRows, hf, hw, hh]

/-! ### Laid-out frames -/

section
variable {d : Desc} (h : layout d.toRequest = .ok d.toDerived)
include h

theorem Desc.supported_of_layout : d.fmt.isSupported = true := (layoutCheck_none (layout_ok h).1).1

theorem Desc.nbit_of_layout : d.nbit = 8 ∨ d.nbit = 10 ∨ d.nbit = 16 := by
  obtain ⟨-, hn, -⟩ := layoutCheck_none (layout_ok h).1
  exact hn

/-- 16-bit frames are raster frames (40_classifier_layout.md R110 check L4). -/
theorem Desc.raster_of_nbit16 (hn : d.nbit = 16) : d.tiled = false := by
  obtain ⟨-, -, -, h16, -⟩ := layoutCheck_none (layout_ok h).1
  exact Bool.eq_false_iff.mpr fun ht => h16 ⟨ht, hn⟩

/-- The tile geometry of a tiled frame is the one of its depth (40_classifier_layout.md R110 check L10). -/
theorem Desc.tile_of_layout (ht : d.tiled = true) :
    d.nbit = 8 ∧ d.tw = 8 ∧ d.th = 4 ∧ d.tsz = 32 ∨ d.nbit = 10 ∧ d.tw = 3 ∧ d.th = 4 ∧ d.tsz = 16 := by
  obtain ⟨-, -, -, -, -, -, -, -, -, hgeo⟩ := layoutCheck_none (layout_ok h).1
  simpa [Request.geometryLegal, and_assoc] using hgeo ht

/-- A tiled frame is not packed, so a luma row has `w` samples (40_classifier_layout.md R110 check L5). -/
theorem Desc.unpacked_of_tiled (ht : d.tiled = true) : d.fmt.isPacked = false := by
  obtain ⟨-, -, -, -, hp, -⟩ := layoutCheck_none (layout_ok h).1
  exact Bool.eq_false_iff.mpr fun hpk => hp ⟨ht, hpk⟩

theorem Desc.derived_of_layout : d.toDerived = d.derive := (layout_ok h).2.2

theorem Desc.yStride_of_layout : d.yStride = d.lumaStride := congrArg Derived.yStride (Desc.derived_of_layout h)
theorem Desc.uvStride_of_layout : d.uvStride = d.chromaStride := congrArg Derived.uvStride (Desc.derived_of_layout h)
theorem Desc.ySize_of_layout : d.ySize = d.lumaSize := congrArg Derived.ySize (Desc.derived_of_layout h)
theorem Desc.uvSize_of_layout : d.uvSize = d.chromaSize := congrArg Derived.uvSize (Desc.derived_of_layout h)
theorem Desc.ioSize_of_layout : d.ioSize = d.frameSize := congrArg Derived.ioSize (Desc.derived_of_layout h)

theorem Desc.ioSize_le_bufSize : d.ioSize ≤ d.bufSize := Desc.ioSize_of_layout h ▸ (layout_ok h).2.1

/-- A luma storage row fits the luma stride (40_classifier_layout.md R107). -/
theorem Desc.lumaRowBytes_le : rowBytes d (plane d 0) ≤ d.yStride := by
  rw [Desc.yStride_of_layout h, plane_zero (Desc.supported_of_layout h)]
  refine le_trans ?_ (Nat.le_max_left _ _)
  unfold rowBytes Request.naturalStride Request.lumaWidth
  cases ht : d.tiled with
  | true => simp [Desc.unpacked_of_tiled h ht]
  | false =>
    cases hp : d.fmt.isPacked with
    | false => simp
    | true =>
      simp only [if_true, Bool.false_eq_true, if_false]
      have hc := (ceilDiv_le_iff (a := d.width * d.nbit) (by decide : 0 < 8)).mp le_rfl
      rw [ceilDiv_le_iff (by decide), mul_assoc]
      omega

/-- A chroma storage row fits the chroma stride (40_classifier_layout.md R108). -/
theorem Desc.chromaRowBytes_le {i : Nat} (hi : i < d.fmt.chromaPlanes) : rowBytes d (plane d (i + 1)) ≤ d.uvStride := by
  have hluma := Desc.lumaRowBytes_le h
  rw [Desc.yStride_of_layout h, plane_zero (Desc.supported_of_layout h)] at hluma
  rw [Desc.uvStride_of_layout h, plane_succ (Desc.supported_of_layout h) hi]
  obtain ⟨hmono, hpk⟩ := PixelFormat.not_mono_packed_of_chromaPlanes (Nat.zero_lt_of_lt hi)
  unfold Request.chromaStride
  unfold rowBytes Request.lumaWidth at hluma
  unfold rowBytes Request.chromaWidth
  simp only [hmono, hpk, Bool.or_self, Bool.false_eq_true, if_false] at hluma ⊢
  cases hsp : d.fmt.isSemiplanar with
  | true => simpa using hluma
  | false =>
    cases ht : d.tiled with
    | true => simp
    | false =>
      simp only [ht, Bool.false_eq_true, if_false] at hluma ⊢
      have hhalf : d.width / 2 * d.nbit * 2 ≤ d.width * d.nbit := by
        calc d.width / 2 * d.nbit * 2 = d.width / 2 * 2 * d.nbit := by ring
          _ ≤ d.width * d.nbit := Nat.mul_le_mul_right _ (Nat.div_mul_le_self _ _)
      have hc := (ceilDiv_le_iff (a := d.lumaStride) (by decide : 0 < 2)).mp le_rfl
      rw [ceilDiv_le_iff (by decide)] at hluma ⊢
      omega

/-- A storage row fits its plane's stride (40_classifier_layout.md R113). -/
theorem rowBytes_le_stride {i : Nat} (hi : i < (planes d).length) : rowBytes d (plane d i) ≤ (plane d i).stride := by
  have hsup := Desc.supported_of_layout h
  rw [planes_length hsup] at hi
  cases i with
  | zero =>
    refine (Desc.lumaRowBytes_le h).trans_eq ?_
    rw [plane_zero hsup]
  | succ i =>
    have hi : i < d.fmt.chromaPlanes := by omega
    refine (Desc.chromaRowBytes_le h hi).trans_eq ?_
    rw [plane_succ hsup hi]

/-- The storage rows of the luma plane fill `y_size` bytes (40_classifier_layout.md R107). -/
theorem stride_mul_rows_luma : (plane d 0).stride * storageRows d (plane d 0) = d.ySize := by
  rw [plane_zero (Desc.supported_of_layout h), Desc.ySize_of_layout h, Desc.yStride_of_layout h]
  rfl

/-- The storage rows of a chroma plane fill `uv_size` bytes (40_classifier_layout.md R109). -/
theorem stride_mul_rows_chroma {i : Nat} (hi : i < d.fmt.chromaPlanes) :
    (plane d (i + 1)).stride * storageRows d (plane d (i + 1)) = d.uvSize := by
  rw [plane_succ (Desc.supported_of_layout h) hi, Desc.uvSize_of_layout h, Desc.uvStride_of_layout h]
  unfold Request.chromaSize storageRows
  split_ifs with h0
  · simp [h0]
  · simp [h0]
  · rfl
  · rfl

/-- The planes of a frame lie one after another (40_classifier_layout.md R111). -/
theorem planes_ordered {i j : Nat} (hij : i < j) (hj : j < (planes d).length) :
    (plane d i).off + (plane d i).stride * storageRows d (plane d i) ≤ (plane d j).off := by
  have hsup := Desc.supported_of_layout h
  rw [planes_length hsup] at hj
  obtain ⟨j, rfl⟩ : ∃ k, j = k + 1 := ⟨j - 1, by omega⟩
  have hj : j < d.fmt.chromaPlanes := by omega
  cases i with
  | zero =>
    rw [stride_mul_rows_luma h, plane_zero hsup, plane_succ hsup hj]
    simp
  | succ i =>
    have hi : i < d.fmt.chromaPlanes := by omega
    rw [stride_mul_rows_chroma h hi, plane_succ hsup hi, plane_succ hsup hj]
    have : (i + 1) * d.uvSize ≤ j * d.uvSize := Nat.mul_le_mul_right _ (by omega)
    simp only [Nat.add_mul] at this ⊢
    omega

/-- Every plane ends inside the frame (40_classifier_layout.md R113). -/
theorem plane_end_le_ioSize {i : Nat} (hi : i < (planes d).length) :
    (plane d i).off + (plane d i).stride * storageRows d (plane d i) ≤ d.ioSize := by
  have hsup := Desc.supported_of_layout h
  have hframe : d.ySize + d.fmt.chromaPlanes * d.uvSize ≤ d.ioSize := by
    rw [Desc.ioSize_of_layout h, Desc.ySize_of_layout h, Desc.uvSize_of_layout h]
    exact Nat.le_max_left _ _
  rw [planes_length hsup] at hi
  cases i with
  | zero =>
    rw [stride_mul_rows_luma h, plane_zero hsup]
    simp only
    omega
  | succ i =>
    have hi : i < d.fmt.chromaPlanes := by omega
    rw [stride_mul_rows_chroma h hi, plane_succ hsup hi]
    have : (i + 1) * d.uvSize ≤ d.fmt.chromaPlanes * d.uvSize := Nat.mul_le_mul_right _ hi
    simp only [Nat.add_mul] at this ⊢
    omega

/-- The bytes of a storage row lie inside the part of the frame its plane fills. -/
theorem rowAddr_within {i y k : Nat} (hi : i < (planes d).length) (hy : y < storageRows d (plane d i))
    (hk : k ≤ rowBytes d (plane d i)) :
    rowAddr d (plane d i) y + k ≤ d.base + (plane d i).off + (plane d i).stride * storageRows d (plane d i) := by
  have hfit := rowBytes_le_stride h hi
  have hrows : (y + 1) * (plane d i).stride ≤ storageRows d (plane d i) * (plane d i).stride :=
    Nat.mul_le_mul_right _ hy
  rw [Nat.add_mul, mul_comm (storageRows d (plane d i))] at hrows
  unfold rowAddr
  omega

/-- The natural bytes of a frame lie inside its region (40_classifier_layout.md R113). -/
theorem Desc.naturalByte.inRegion {a : Nat} (ha : d.naturalByte a) : d.base ≤ a ∧ a < d.base + d.ioSize := by
  obtain ⟨i, y, k, hi, hy, hk, rfl⟩ := ha
  have hrow := rowAddr_within h hi hy (Nat.succ_le_of_lt hk)
  have hend := plane_end_le_ioSize h hi
  constructor
  · unfold rowAddr
    omega
  · omega

/-- A frame region inside memory holds all of the frame (40_classifier_layout.md R113; log 9). -/
theorem Desc.inMemory_of_region (hr : d.base + d.ioSize ≤ Config.memSize) : d.inMemory = true := by
  unfold Desc.inMemory
  rw [List.all_eq_true]
  intro p hp
  obtain ⟨i, hi, rfl⟩ := List.getElem_of_mem hp
  have hplane : plane d i = (planes d)[i] := by simp [plane, hi]
  have hend := plane_end_le_ioSize h hi
  rw [Nat.ble_eq, ← hplane]
  unfold planeEnd
  split
  · omega
  · rename_i hne
    obtain ⟨hrows, -⟩ := not_or.mp hne
    have hlast := rowAddr_within h hi (Nat.sub_lt (Nat.pos_of_ne_zero hrows) one_pos) (le_refl (rowBytes d (plane d i)))
    unfold rowAddr at hlast
    omega

/-- Distinct storage rows of a frame share no byte. -/
theorem storageRows_disjoint {i y j z : Nat} (hi : i < (planes d).length) (hy : y < storageRows d (plane d i))
    (hj : j < (planes d).length) (hz : z < storageRows d (plane d j)) (hne : (j, z) ≠ (i, y)) :
    rowAddr d (plane d i) y + rowBytes d (plane d i) ≤ rowAddr d (plane d j) z ∨
      rowAddr d (plane d j) z + rowBytes d (plane d j) ≤ rowAddr d (plane d i) y := by
  have hyend := rowAddr_within h hi hy le_rfl
  have hzend := rowAddr_within h hj hz le_rfl
  have hystart : d.base + (plane d i).off ≤ rowAddr d (plane d i) y := Nat.le_add_right _ _
  have hzstart : d.base + (plane d j).off ≤ rowAddr d (plane d j) z := Nat.le_add_right _ _
  rcases lt_trichotomy i j with hij | rfl | hij
  · have := planes_ordered h hij hj
    omega
  · have hfit := rowBytes_le_stride h hi
    rcases lt_trichotomy y z with hyz | rfl | hyz
    · left
      have : (y + 1) * (plane d i).stride ≤ z * (plane d i).stride := Nat.mul_le_mul_right _ hyz
      rw [Nat.add_mul] at this
      unfold rowAddr
      omega
    · exact absurd rfl hne
    · right
      have : (z + 1) * (plane d i).stride ≤ y * (plane d i).stride := Nat.mul_le_mul_right _ hyz
      rw [Nat.add_mul] at this
      unfold rowAddr
      omega
  · have := planes_ordered h hij hi
    omega

end

end Sys2Proof.Machine
end

section
/-! PROOFS. Which bytes a primitive writes: every write of a body lies in a storage row of the destination frame
(20_memory.md R72, 41_codec.md R120, 70_reset_and_hazards.md R219). -/

namespace Sys2Proof.Machine

/-! ### Memory outside a frame and outside one of its rows -/

theorem keepsOutside.refl (d : Desc) (m : Memory) : keepsOutside d m m := fun _ _ => rfl

theorem keepsOutside.trans {d : Desc} {m m' m'' : Memory} (h : keepsOutside d m m') (h' : keepsOutside d m' m'') :
    keepsOutside d m m'' := fun a ha => (h' a ha).trans (h a ha)

theorem iterate_keepsOutside {d : Desc} {n : Nat} {f : Nat → Memory → Memory}
    (h : ∀ k, k < n → ∀ m, keepsOutside d m (f k m)) (m : Memory) : keepsOutside d m (iterate n f m) :=
  fun a ha => iterate_read (fun k hk m' => h k hk m' a ha) m

/-- Every byte of memory but those of storage row `y` of plane `p` reads as before. -/
def keepsRow (d : Desc) (p : Plane) (y : Nat) (m m' : Memory) : Prop :=
  ∀ a, a < rowAddr d p y ∨ rowAddr d p y + rowBytes d p ≤ a → Memory.read m' a = Memory.read m a

theorem iterate_keepsRow {d : Desc} {p : Plane} {y n : Nat} {f : Nat → Memory → Memory}
    (h : ∀ k, k < n → ∀ m, keepsRow d p y m (f k m)) (m : Memory) : keepsRow d p y m (iterate n f m) :=
  fun a ha => iterate_read (fun k hk m' => h k hk m' a ha) m

theorem keepsRow.keepsOutside {d : Desc} {i y : Nat} {m m' : Memory} (h : keepsRow d (plane d i) y m m')
    (hi : i < (planes d).length) (hy : y < storageRows d (plane d i)) : keepsOutside d m m' := by
  intro a ha
  refine h a ?_
  by_contra hin
  exact ha ⟨i, y, a - rowAddr d (plane d i) y, hi, hy, by omega, by omega⟩

section
variable {d : Desc} {p : Plane} {y o n addr : Nat} (haddr : addr = rowAddr d p y + o) (hfit : o + n ≤ rowBytes d p)
include haddr hfit

/-- A change of `n` bytes from offset `o` of a storage row on stays in the row. -/
theorem keepsRow_of_bytes {m m' : Memory}
    (h : ∀ a, a < addr ∨ addr + n ≤ a → Memory.read m' a = Memory.read m a) : keepsRow d p y m m' :=
  fun a ha => h a (by omega)

theorem writeLE_keepsRow (m : Memory) (v : Nat) : keepsRow d p y m (Memory.writeLE m addr n v) :=
  keepsRow_of_bytes haddr hfit fun _ ha => Memory.read_writeLE_outside m ha

theorem copyBytes_keepsRow (m : Memory) (src : Nat) : keepsRow d p y m (Memory.copyBytes m addr src n) :=
  keepsRow_of_bytes haddr hfit fun _ ha => Memory.read_copyBytes_outside m ha

end

theorem write_keepsRow {d : Desc} {p : Plane} {y o addr : Nat} (haddr : addr = rowAddr d p y + o)
    (hfit : o < rowBytes d p) (m : Memory) (b : Byte) : keepsRow d p y m (Memory.write m addr b) :=
  keepsRow_of_bytes (n := 1) haddr hfit fun _ ha => Memory.read_write_ne m b (by omega)

/-! ### The storage rows of each kind of frame -/

theorem storageRows_raster {d : Desc} (ht : d.tiled = false) (p : Plane) : storageRows d p = p.rows := by
  simp [storageRows, ht]

/-- A raster row of `b`-byte samples (20_memory.md R68). -/
theorem rowBytes_raster {d : Desc} (ht : d.tiled = false) {b : Nat} (hb : d.nbit = 8 * b) (p : Plane) :
    rowBytes d p = p.ws * b := by
  rw [rowBytes, ht, hb, show p.ws * (8 * b) = p.ws * b * 8 by ring]
  unfold ceilDiv
  simp only [Bool.false_eq_true, if_false]
  omega

/-- A compact 10-bit raster row (20_memory.md R69). -/
theorem rowBytes_compact {d : Desc} (ht : d.tiled = false) (hn : d.nbit = 10) (p : Plane) :
    rowBytes d p = ceilDiv (10 * p.ws) 8 := by
  simp [rowBytes, ht, hn, mul_comm]

section
variable {d : Desc} (h : layout d.toRequest = .ok d.toDerived) (ht : d.tiled = true)
include h ht

theorem storageRows_tiled (p : Plane) : storageRows d p = ceilDiv p.rows 4 := by
  have hth : d.th = 4 := by
    rcases Desc.tile_of_layout h ht with ⟨-, -, hth, -⟩ | ⟨-, -, hth, -⟩ <;> exact hth
  simp [storageRows, ht, hth]

/-- A row of 8-bit tile cells (20_memory.md R70). -/
theorem rowBytes_tiled8 (hn : d.nbit = 8) (p : Plane) : rowBytes d p = ceilDiv p.ws 8 * 32 := by
  obtain ⟨htw, htsz⟩ : d.tw = 8 ∧ d.tsz = 32 := by
    have := Desc.tile_of_layout h ht
    omega
  simp [rowBytes, ht, htw, htsz]

/-- A row of compact 10-bit tile cells (20_memory.md R71). -/
theorem rowBytes_tiled10 (hn : d.nbit = 10) (p : Plane) : rowBytes d p = ceilDiv p.ws 3 * 16 := by
  obtain ⟨htw, htsz⟩ : d.tw = 3 ∧ d.tsz = 16 := by
    have := Desc.tile_of_layout h ht
    omega
  simp [rowBytes, ht, htw, htsz]

end

/-! ### Writes to samples of a raster frame -/

/-- Sample `x` of a raster row of `b`-byte samples lies in the row. -/
theorem sample_fits {d : Desc} (ht : d.tiled = false) {b : Nat} (hb : d.nbit = 8 * b) {p : Plane} {x : Nat}
    (hx : x < p.ws) : x * b + b ≤ rowBytes d p := by
  rw [rowBytes_raster ht hb, ← Nat.succ_mul]
  exact Nat.mul_le_mul_right b hx

theorem writeSample_keepsRow {d : Desc} (ht : d.tiled = false) {b : Nat} (hb : d.nbit = 8 * b) {p : Plane} {x : Nat}
    (hx : x < p.ws) (y : Nat) (m : Memory) (v : Nat) :
    keepsRow d p y m (Memory.writeLE m (sampleAddr d p b x y) b v) :=
  writeLE_keepsRow rfl (sample_fits ht hb hx) m v

/-- The write of one sample of a raster frame is a write inside the frame. -/
theorem writeSample_keepsOutside {d : Desc} (ht : d.tiled = false) {b : Nat} (hb : d.nbit = 8 * b) {i x y : Nat}
    (hs : d.hasSample i x y) (m : Memory) (v : Nat) :
    keepsOutside d m (Memory.writeLE m (sampleAddr d (plane d i) b x y) b v) := by
  obtain ⟨hi, hx, hy⟩ := hs
  exact (writeSample_keepsRow ht hb hx y m v).keepsOutside hi (by rwa [storageRows_raster ht])

/-! ### The frame pairs of a primitive -/

/-- What every primitive that runs knows of its two frames: both are laid out and their dimensions agree
(41_codec.md R121). -/
structure FramePair (s d : Desc) : Prop where
  src : layout s.toRequest = .ok s.toDerived
  dst : layout d.toRequest = .ok d.toDerived
  width : s.width = d.width
  height : s.height = d.height

namespace FramePair
variable {s d : Desc} (h : FramePair s d)
include h

theorem length_eq (hf : s.fmt = d.fmt) : (planes s).length = (planes d).length :=
  (planes_sameShape (Desc.supported_of_layout h.src) hf h.width h.height).1

theorem ws_eq (hf : s.fmt = d.fmt) {i : Nat} (hi : i < (planes d).length) : (plane s i).ws = (plane d i).ws :=
  ((planes_sameShape (Desc.supported_of_layout h.src) hf h.width h.height).2 i hi).1

theorem rows_eq (hf : s.fmt = d.fmt) {i : Nat} (hi : i < (planes d).length) : (plane s i).rows = (plane d i).rows :=
  ((planes_sameShape (Desc.supported_of_layout h.src) hf h.width h.height).2 i hi).2

/-- Two frames of one format have the same samples. -/
theorem hasSample_iff (hf : s.fmt = d.fmt) (i x y : Nat) : s.hasSample i x y ↔ d.hasSample i x y := by
  unfold Desc.hasSample
  rw [h.length_eq hf]
  exact and_congr_right fun hi => by rw [h.ws_eq hf hi, h.rows_eq hf hi]

end FramePair

/-- A loop over the rows of both frames stays in the destination if each pass does. -/
theorem forRows_keepsOutside {s d : Desc} {f : Plane → Plane → Nat → Memory → Memory}
    (hf : ∀ i y, i < (planes s).length → y < (plane s i).rows → ∀ m, keepsOutside d m (f (plane s i) (plane d i) y m))
    (m : Memory) : keepsOutside d m (forRows s d f m) :=
  iterate_keepsOutside (fun i hi => iterate_keepsOutside fun y hy => hf i y hi hy) m

/-! ### The codec -/

/-- One row of `UNPACK10` (41_codec.md R124). -/
def unpack10Row (s d : Desc) (ps pd : Plane) (y : Nat) (m : Memory) : Memory :=
  if s.tiled then
    iterate ps.ws (fun x m1 =>
      Memory.writeLE m1 (sampleAddr d pd 2 x y) 2
        (bitField (Memory.readLE m1 (tileWordAddr10 s ps x y) 4 >>> (10 * (x % 3))) 9 0)) m
  else writeRow16 m (rowAddr d pd y) (unpackRow m (rowAddr s ps y) ps.ws)

theorem bodyUnpack10_eq (s d : Desc) (m : Memory) : bodyUnpack10 s d m = forRows s d (unpack10Row s d) m := rfl

theorem read_writeRow16_outside (m : Memory) {addr a : Nat} {v : List Nat} (h : a < addr ∨ addr + v.length * 2 ≤ a) :
    Memory.read (writeRow16 m addr v) a = Memory.read m a := by
  induction v generalizing m addr with
  | nil => rfl
  | cons x rest ih =>
    rw [List.length_cons] at h
    rw [writeRow16, ih _ (by omega), Memory.read_writeLE_outside m (by omega)]

theorem unpackFrom_length (mem : Memory) (ra l n acc nv m : Nat) : (unpackFrom mem ra l n acc nv m).length = n := by
  induction n generalizing acc nv m with
  | zero => rfl
  | succ n ih =>
    unfold unpackFrom
    split <;> simp [ih]

@[simp] theorem unpackRow_length (mem : Memory) (ra n : Nat) : (unpackRow mem ra n).length = n :=
  unpackFrom_length ..

theorem unpack10Row_keepsRow {s d : Desc} (ht : d.tiled = false) (hn : d.nbit = 16) {ps pd : Plane}
    (hws : ps.ws = pd.ws) (y : Nat) (m : Memory) : keepsRow d pd y m (unpack10Row s d ps pd y m) := by
  unfold unpack10Row
  split
  · exact iterate_keepsRow (fun x hx m1 => writeSample_keepsRow ht hn (hws ▸ hx) y m1 _) m
  · have hfit : 0 + ps.ws * 2 ≤ rowBytes d pd := by rw [rowBytes_raster (b := 2) ht hn, hws, Nat.zero_add]
    refine keepsRow_of_bytes rfl hfit fun a ha => ?_
    exact read_writeRow16_outside m (by simpa using ha)

theorem storeWord_keeps (mem : Memory) {ra m l word a : Nat} (h : a < ra ∨ ra + l ≤ a) :
    Memory.read (storeWord mem ra m l word) a = Memory.read mem a := by
  refine iterate_read (fun b _ mem1 => ?_) mem
  split
  · exact Memory.read_write_ne mem1 _ (by omega)
  · rfl

theorem packFrom_keeps (mem : Memory) {ra l a : Nat} (h : a < ra ∨ ra + l ≤ a) (v : List Nat) (acc nv m : Nat) :
    Memory.read (packFrom mem ra l v acc nv m) a = Memory.read mem a := by
  induction v generalizing mem acc nv m with
  | nil =>
    unfold packFrom
    split
    · exact storeWord_keeps mem h
    · rfl
  | cons x rest ih =>
    unfold packFrom
    split
    · rw [ih, storeWord_keeps mem h]
    · exact ih ..

/-- `pack_row` writes only the bytes of its row (41_codec.md R127). -/
theorem packRow_keeps (mem : Memory) {ra a : Nat} {v : List Nat} (h : a < ra ∨ ra + ceilDiv (10 * v.length) 8 ≤ a) :
    Memory.read (packRow mem ra v) a = Memory.read mem a :=
  packFrom_keeps mem h ..

@[simp] theorem readRow16_length (m : Memory) (a n : Nat) : (readRow16 m a n).length = n := by
  induction n generalizing a with
  | zero => rfl
  | succ n ih => simp [readRow16, ih]

/-- The bytes of a tile cell lie in its storage row. -/
theorem cell_fits {tx c o size : Nat} (htx : tx < c) (ho : o < size) : tx * size + o < c * size := by
  have : (tx + 1) * size ≤ c * size := Nat.mul_le_mul_right _ htx
  rw [Nat.succ_mul] at this
  omega

section
variable {s d : Desc} (h : FramePair s d)
include h

theorem bodyUnpack10_keepsOutside (hadm : admissibleUnpack10 s d = true) (m : Memory) :
    keepsOutside d m (bodyUnpack10 s d m) := by
  simp only [admissibleUnpack10, Bool.and_eq_true, beq_iff_eq] at hadm
  obtain ⟨⟨⟨-, hn⟩, -⟩, hf⟩ := hadm
  have ht := Desc.raster_of_nbit16 h.dst hn
  rw [bodyUnpack10_eq]
  refine forRows_keepsOutside (fun i y hi hy m1 => ?_) m
  rw [h.length_eq hf] at hi
  rw [h.rows_eq hf hi] at hy
  exact (unpack10Row_keepsRow ht hn (h.ws_eq hf hi) y m1).keepsOutside hi (by rwa [storageRows_raster ht])

/-- The tiled form of `PACK10` writes whole words of the cells of the plane. -/
theorem packPlaneTiled_keepsOutside (ht : d.tiled = true) (hn : d.nbit = 10) {i : Nat} (hi : i < (planes d).length)
    (ps : Plane) (m : Memory) : keepsOutside d m (packPlaneTiled s d ps (plane d i) m) := by
  refine iterate_keepsOutside (fun ty hty => ?_) m
  rw [← storageRows_tiled h.dst ht] at hty
  refine fun m1 => (iterate_keepsRow (fun tx htx => iterate_keepsRow fun r hr m3 => ?_) m1).keepsOutside hi hty
  refine writeLE_keepsRow (o := tx * 16 + 4 * r) (by rw [rowAddr]; omega) ?_ m3 _
  rw [rowBytes_tiled10 h.dst ht hn]
  have := cell_fits (o := 4 * r + 3) htx (by omega : _ < 16)
  omega

theorem bodyPack10_keepsOutside (hadm : admissiblePack10 s d = true) (m : Memory) :
    keepsOutside d m (bodyPack10 s d m) := by
  simp only [admissiblePack10, Bool.and_eq_true, beq_iff_eq] at hadm
  obtain ⟨⟨⟨-, -⟩, hn⟩, hf⟩ := hadm
  unfold bodyPack10
  cases ht : d.tiled with
  | true =>
    refine iterate_keepsOutside (fun i hi m1 => ?_) m
    exact packPlaneTiled_keepsOutside h ht hn (h.length_eq hf ▸ hi) _ m1
  | false =>
    rw [if_neg Bool.false_ne_true]
    refine forRows_keepsOutside (fun i y hi hy m1 => ?_) m
    rw [h.length_eq hf] at hi
    rw [h.rows_eq hf hi] at hy
    have hrow : keepsRow d (plane d i) y m1 (packRow m1 (rowAddr d (plane d i) y)
        (readRow16 m1 (rowAddr s (plane s i) y) (plane s i).ws)) := fun a ha =>
      packRow_keeps m1 (by rwa [readRow16_length, h.ws_eq hf hi, ← rowBytes_compact ht hn])
    exact hrow.keepsOutside hi (by rwa [storageRows_raster ht])

/-- The body of `NARROW`, `WIDEN` and `RESCALE16`. -/
theorem mapSamples_keepsOutside (hf : s.fmt = d.fmt) {wb : Nat} (ht : d.tiled = false) (hn : d.nbit = 8 * wb)
    (rb : Nat) (f : Nat → Nat) (m : Memory) : keepsOutside d m (mapSamples rb wb f s d m) := by
  refine forRows_keepsOutside (fun i y hi hy => iterate_keepsOutside fun x hx m2 => ?_) m
  exact writeSample_keepsOutside ht hn ((h.hasSample_iff hf i x y).mp ⟨hi, hx, hy⟩) m2 _

/-! ### The remapper -/

theorem bodyUntile8_keepsOutside (hadm : admissibleUntile8 s d = true) (m : Memory) :
    keepsOutside d m (bodyUntile8 s d m) := by
  simp only [admissibleUntile8, Bool.and_eq_true, Bool.not_eq_true', beq_iff_eq] at hadm
  obtain ⟨⟨⟨⟨-, -⟩, hn⟩, ht⟩, hf⟩ := hadm
  refine iterate_keepsOutside (fun i hi => iterate_keepsOutside fun ty _ => iterate_keepsOutside fun tx _ =>
    iterate_keepsOutside fun r _ => iterate_keepsOutside fun c _ m1 => ?_) m
  dsimp only
  split
  · rename_i hin
    obtain ⟨hi, hx, hy⟩ := (h.hasSample_iff hf i _ _).mp ⟨hi, hin⟩
    exact (write_keepsRow rfl (sample_fits (b := 1) ht hn hx) m1 _).keepsOutside hi (by rwa [storageRows_raster ht])
  · exact keepsOutside.refl d m1

theorem bodyTile8_keepsOutside (hadm : admissibleTile8 s d = true) (m : Memory) :
    keepsOutside d m (bodyTile8 s d m) := by
  simp only [admissibleTile8, Bool.and_eq_true, Bool.not_eq_true', beq_iff_eq] at hadm
  obtain ⟨⟨⟨⟨-, -⟩, hn⟩, ht⟩, hf⟩ := hadm
  refine iterate_keepsOutside (fun i hi => iterate_keepsOutside fun ty hty m1 => ?_) m
  rw [h.length_eq hf] at hi
  rw [← storageRows_tiled h.dst ht] at hty
  refine (iterate_keepsRow (fun tx htx => iterate_keepsRow fun r hr => iterate_keepsRow fun c hc m4 => ?_)
    m1).keepsOutside hi hty
  refine write_keepsRow (o := tx * 32 + (8 * r + c)) (by rw [rowAddr]; omega) ?_ m4 _
  rw [rowBytes_tiled8 h.dst ht hn]
  exact cell_fits htx (by omega)

end

/-- An 8-bit or 16-bit raster frame has samples of `sb` bytes (42_remapper.md R140). -/
theorem Desc.rmOk_iff {d : Desc} : d.rmOk = true ↔ (d.nbit = 8 ∨ d.nbit = 16) ∧ d.tiled = false := by
  simp [Desc.rmOk]

theorem Desc.nbit_eq_of_rmOk {d : Desc} (h : d.rmOk = true) : d.nbit = 8 * d.sb := by
  obtain ⟨hn, -⟩ := Desc.rmOk_iff.mp h
  unfold Desc.sb
  omega

/-- What the sample-moving primitives know of the destination: it is raster, and its samples have the source's size. -/
theorem rasterPair {s d : Desc} (hs : s.rmOk = true) (hd : d.rmOk = true) (hn : s.nbit = d.nbit) :
    d.tiled = false ∧ d.nbit = 8 * s.sb :=
  ⟨(Desc.rmOk_iff.mp hd).2, hn ▸ Desc.nbit_eq_of_rmOk hs⟩

theorem moveSample_keepsOutside {d : Desc} {b : Nat} (hd : d.tiled = false ∧ d.nbit = 8 * b) {i x y : Nat}
    (hs : d.hasSample i x y) (m : Memory) (src : Nat) :
    keepsOutside d m (Memory.moveSample m b (sampleAddr d (plane d i) b x y) src) :=
  writeSample_keepsOutside hd.1 hd.2 hs m _

theorem forPairs_keepsOutside {d : Desc} {rows n : Nat} {f : Nat → Nat → Memory → Memory}
    (hf : ∀ y i, y < rows → i < n → ∀ m, keepsOutside d m (f y i m)) (m : Memory) :
    keepsOutside d m (forPairs rows n f m) :=
  iterate_keepsOutside (fun y hy => iterate_keepsOutside fun i hi => hf y i hy hi) m

theorem copyPlane_keepsOutside {s d : Desc} {b : Nat} (hd : d.tiled = false ∧ d.nbit = 8 * b) {i : Nat}
    (hi : i < (planes d).length) (ps : Plane) (rowmap : Nat → Nat) (m : Memory) :
    keepsOutside d m (copyPlane s ps d (plane d i) b rowmap m) := by
  refine iterate_keepsOutside (fun y hy m1 => ?_) m
  refine (copyBytes_keepsRow (o := 0) rfl ?_ m1 _).keepsOutside hi (by rwa [storageRows_raster hd.1])
  rw [rowBytes_raster hd.1 hd.2, Nat.zero_add]

/-! #### Luma and chroma samples -/

theorem hasSample_luma {d : Desc} (h : d.fmt.isSupported = true) {x y : Nat} (hx : x < d.lumaWidth)
    (hy : y < d.height) : d.hasSample 0 x y := by
  refine ⟨?_, ?_, ?_⟩
  · rw [planes_length h]
    omega
  · rwa [plane_zero h]
  · rwa [plane_zero h]

theorem hasSample_chroma {d : Desc} (h : d.fmt.isSupported = true) {i x y : Nat} (h0 : i ≠ 0)
    (hi : i ≤ d.fmt.chromaPlanes) (hx : x < d.chromaWidth) (hy : y < d.chromaRows) : d.hasSample i x y := by
  obtain ⟨hws, hrows⟩ := plane_chroma h h0 hi
  exact ⟨by rw [planes_length h]; omega, hws ▸ hx, hrows ▸ hy⟩

/-- The chroma planes of a semi-planar frame `sp` and of a planar frame `p` in its base format: one plane of `w` samples
a row against two of `w/2`, with as many rows (20_memory.md R67, 40_classifier_layout.md R101). -/
theorem chroma_of_semiplanar {sp p : Desc} (hsp : sp.fmt.isSemiplanar = true) (hb : p.fmt = sp.fmt.base)
    (hw : sp.width = p.width) (hh : sp.height = p.height) :
    sp.fmt.chromaPlanes = 1 ∧ p.fmt.chromaPlanes = 2 ∧ sp.chromaWidth = p.width ∧ p.chromaWidth = p.width / 2 ∧
      sp.chromaRows = p.chromaRows := by
  have key (f : PixelFormat) (hf : f.isSemiplanar = true) : f.chromaPlanes = 1 ∧ f.base.chromaPlanes = 2 ∧
      f.base.isSemiplanar = false ∧ f.base.is420 = f.is420 := by
    revert hf
    cases f <;> decide
  obtain ⟨h1, h2, hno, h420⟩ := key _ hsp
  simp [Request.chromaWidth, Request.chromaRows, hb, hsp, h1, h2, hno, h420, hw, hh]

theorem PixelFormat.first_chroma (f : PixelFormat) : f.first ≠ 0 ∧ f.first ≤ 2 := by
  cases f <;> decide

theorem PixelFormat.second_chroma (f : PixelFormat) : f.second ≠ 0 ∧ f.second ≤ 2 := by
  cases f <;> decide

/-- The four positions of a group are below 4 (42_remapper.md R150). -/
theorem PixelFormat.groupOrder_lt (f : PixelFormat) :
    f.groupOrder.iy0 < 4 ∧ f.groupOrder.iu < 4 ∧ f.groupOrder.iy1 < 4 ∧ f.groupOrder.iv < 4 := by
  cases f <;> decide

/-- Samples `(p, y)` of the planar 4:2:2 frame of a packed conversion: two luma, one of each chroma plane. -/
theorem hasSample_f422p {d : Desc} (hf : d.fmt = .f422p) {p y : Nat} (hp : p < d.width / 2) (hy : y < d.height) :
    d.hasSample 0 (2 * p) y ∧ d.hasSample 0 (2 * p + 1) y ∧ d.hasSample 1 p y ∧ d.hasSample 2 p y := by
  have hsup : d.fmt.isSupported = true := by rw [hf]; rfl
  have hluma : d.lumaWidth = d.width := by simp [Request.lumaWidth, hf, PixelFormat.isPacked]
  have hwidth : d.chromaWidth = d.width / 2 := by simp [Request.chromaWidth, hf, PixelFormat.isSemiplanar]
  have hrows : d.chromaRows = d.height := by simp [Request.chromaRows, hf, PixelFormat.is420]
  have hnch : d.fmt.chromaPlanes = 2 := by rw [hf]; rfl
  exact ⟨hasSample_luma hsup (by omega) hy, hasSample_luma hsup (by omega) hy,
    hasSample_chroma hsup one_ne_zero (by omega) (by omega) (by omega),
    hasSample_chroma hsup two_ne_zero (by omega) (by omega) (by omega)⟩

theorem PixelFormat.isSupported_of_isPacked {f : PixelFormat} (h : f.isPacked = true) : f.isSupported = true := by
  revert h
  cases f <;> decide

/-- The four samples of group `p` of a packed frame. -/
theorem hasSample_packed {d : Desc} (hf : d.fmt.isPacked = true) {p y k : Nat} (hp : p < d.width / 2)
    (hy : y < d.height) (hk : k < 4) : d.hasSample 0 (4 * p + k) y := by
  refine hasSample_luma (PixelFormat.isSupported_of_isPacked hf) ?_ hy
  simp only [Request.lumaWidth, hf, if_true]
  omega

/-! #### The bodies -/

section
variable {s d : Desc} (h : FramePair s d)
include h

/-- `RECTCOPY` moves storage rows of equal length (42_remapper.md R158). -/
theorem FramePair.storage_eq (hf : s.fmt = d.fmt) (ht : s.tiled = d.tiled) (hn : s.nbit = d.nbit) {i : Nat}
    (hi : i < (planes d).length) :
    storageRows s (plane s i) = storageRows d (plane d i) ∧ rowBytes s (plane s i) = rowBytes d (plane d i) := by
  have hgeo : s.tiled = true → s.tw = d.tw ∧ s.th = d.th ∧ s.tsz = d.tsz := fun hts => by
    have := Desc.tile_of_layout h.src hts
    have := Desc.tile_of_layout h.dst (ht ▸ hts)
    omega
  unfold storageRows rowBytes
  rw [← ht, ← hn, h.ws_eq hf hi, h.rows_eq hf hi]
  cases hts : s.tiled with
  | true =>
    obtain ⟨htw, hth, htsz⟩ := hgeo hts
    simp [htw, hth, htsz]
  | false => simp

theorem bodyRectcopy_keepsOutside (hadm : admissibleRectcopy s d = true) (hn : s.nbit = d.nbit) (m : Memory) :
    keepsOutside d m (bodyRectcopy s d m) := by
  simp only [admissibleRectcopy, Bool.and_eq_true, beq_iff_eq] at hadm
  obtain ⟨hf, ht⟩ := hadm
  refine iterate_keepsOutside (fun i hi => iterate_keepsOutside fun y hy m1 => ?_) m
  rw [h.length_eq hf] at hi
  obtain ⟨hrows, hbytes⟩ := h.storage_eq hf ht hn hi
  exact (copyBytes_keepsRow (o := 0) rfl (by rw [hbytes, Nat.zero_add]) m1 _).keepsOutside hi (hrows ▸ hy)

theorem bodySp2p_keepsOutside (hadm : admissibleSp2p s d = true) (hn : s.nbit = d.nbit) (m : Memory) :
    keepsOutside d m (bodySp2p s d m) := by
  simp only [admissibleSp2p, Bool.and_eq_true, beq_iff_eq] at hadm
  obtain ⟨⟨⟨hs, hd⟩, hsp⟩, hb⟩ := hadm
  have hraster := rasterPair hs hd hn
  have hsupS := Desc.supported_of_layout h.src
  have hsup := Desc.supported_of_layout h.dst
  obtain ⟨hnchS, hnch, hwS, hw, hrows⟩ := chroma_of_semiplanar hsp hb h.width h.height
  obtain ⟨hpws, hprows⟩ := plane_chroma hsupS one_ne_zero hnchS.ge
  have hpair {i : Nat} (h0 : i ≠ 0 ∧ i ≤ 2) {x y : Nat} (hy : y < (plane s 1).rows) (hx : x < (plane s 1).ws / 2) :
      d.hasSample i x y :=
    hasSample_chroma hsup h0.1 (hnch ▸ h0.2) (by omega) (by omega)
  refine (copyPlane_keepsOutside hraster (by rw [planes_length hsup]; omega) _ _ m).trans
    (forPairs_keepsOutside (fun y i hy hi m1 => ?_) _)
  exact (moveSample_keepsOutside hraster (hpair (PixelFormat.first_chroma _) hy hi) m1 _).trans
    (moveSample_keepsOutside hraster (hpair (PixelFormat.second_chroma _) hy hi) _ _)

theorem bodyP2sp_keepsOutside (hadm : admissibleP2sp s d = true) (hn : s.nbit = d.nbit) (m : Memory) :
    keepsOutside d m (bodyP2sp s d m) := by
  simp only [admissibleP2sp, Bool.and_eq_true, beq_iff_eq] at hadm
  obtain ⟨⟨⟨hs, hd⟩, hsp⟩, hb⟩ := hadm
  have hraster := rasterPair hs hd hn
  have hsup := Desc.supported_of_layout h.dst
  obtain ⟨hnch, -, -, -, -⟩ := chroma_of_semiplanar hsp hb h.width.symm h.height.symm
  obtain ⟨hpws, hprows⟩ := plane_chroma hsup one_ne_zero hnch.ge
  have hpair {x y : Nat} (hy : y < (plane d 1).rows) (hx : x < (plane d 1).ws) : d.hasSample 1 x y :=
    hasSample_chroma hsup one_ne_zero hnch.ge (hpws ▸ hx) (hprows ▸ hy)
  refine (copyPlane_keepsOutside hraster (by rw [planes_length hsup]; omega) _ _ m).trans
    (forPairs_keepsOutside (fun y i hy hi m1 => ?_) _)
  exact (moveSample_keepsOutside hraster (hpair hy (by omega)) m1 _).trans
    (moveSample_keepsOutside hraster (hpair hy (by omega)) _ _)

theorem bodyPk2p_keepsOutside (hadm : admissiblePk2p s d = true) (hn : s.nbit = d.nbit) (m : Memory) :
    keepsOutside d m (bodyPk2p s d m) := by
  simp only [admissiblePk2p, Bool.and_eq_true, beq_iff_eq] at hadm
  obtain ⟨⟨⟨hs, hd⟩, -⟩, hf⟩ := hadm
  have hraster := rasterPair hs hd hn
  refine forPairs_keepsOutside (fun y p hy hp m1 => ?_) m
  rw [h.height] at hy
  rw [h.width] at hp
  obtain ⟨hy0, hy1, hu, hv⟩ := hasSample_f422p hf hp hy
  exact (((moveSample_keepsOutside hraster hy0 m1 _).trans (moveSample_keepsOutside hraster hy1 _ _)).trans
    (moveSample_keepsOutside hraster hu _ _)).trans (moveSample_keepsOutside hraster hv _ _)

theorem bodyP2pk_keepsOutside (hadm : admissibleP2pk s d = true) (hn : s.nbit = d.nbit) (m : Memory) :
    keepsOutside d m (bodyP2pk s d m) := by
  simp only [admissibleP2pk, Bool.and_eq_true, beq_iff_eq] at hadm
  obtain ⟨⟨⟨hs, hd⟩, hpk⟩, -⟩ := hadm
  have hraster := rasterPair hs hd hn
  obtain ⟨hiy0, hiu, hiy1, hiv⟩ := PixelFormat.groupOrder_lt d.fmt
  refine forPairs_keepsOutside (fun y p hy hp m1 => ?_) m
  rw [h.height] at hy
  rw [h.width] at hp
  have hmove {k : Nat} (hk : k < 4) := moveSample_keepsOutside hraster (hasSample_packed hpk hp hy hk)
  exact (((hmove hiy0 m1 _).trans (hmove hiy1 _ _)).trans (hmove hiu _ _)).trans (hmove hiv _ _)

theorem bodyResample_keepsOutside (hadm : admissibleResample s d = true) (hn : s.nbit = d.nbit) (m : Memory) :
    keepsOutside d m (bodyResample s d m) := by
  simp only [admissibleResample, Bool.and_eq_true] at hadm
  obtain ⟨⟨⟨hs, hd⟩, -⟩, hpl⟩ := hadm
  have hraster := rasterPair hs hd hn
  have hlen : (planes d).length = 3 := by
    rw [planes_length (Desc.supported_of_layout h.dst), PixelFormat.chromaPlanes, if_pos hpl]
  have hcopy {i : Nat} (hi : i < 3) := copyPlane_keepsOutside (s := s) hraster (hlen ▸ hi)
  exact ((hcopy three_pos _ _ m).trans (hcopy (by decide : 1 < 3) _ _ _)).trans (hcopy (by decide : 2 < 3) _ _ _)

/-- Every primitive, on frames it admits, writes natural bytes of its destination only (41_codec.md R120,
70_reset_and_hazards.md R219). -/
theorem Prim.body_keepsOutside (p : Prim) (hadm : p.primitive.admissible s d = true)
    (hdepth : p.primitive.equalDepth = true → s.nbit = d.nbit) (m : Memory) :
    keepsOutside d m (p.primitive.body s d m) := by
  cases p with
  | unpack10 => exact bodyUnpack10_keepsOutside h hadm m
  | pack10 => exact bodyPack10_keepsOutside h hadm m
  | narrow =>
    simp only [primitive, primNarrow, admissibleNarrow, Bool.and_eq_true, Bool.not_eq_true', beq_iff_eq] at hadm
    obtain ⟨⟨⟨⟨-, hn⟩, ht⟩, hf⟩, -⟩ := hadm
    exact mapSamples_keepsOutside h hf ht hn _ _ m
  | widen =>
    simp only [primitive, primWiden, admissibleWiden, Bool.and_eq_true, Bool.not_eq_true', beq_iff_eq] at hadm
    obtain ⟨⟨⟨-, hn⟩, hf⟩, -⟩ := hadm
    exact mapSamples_keepsOutside h hf (Desc.raster_of_nbit16 h.dst hn) hn _ _ m
  | rescale16 =>
    simp only [primitive, primRescale16, admissibleRescale16, Bool.and_eq_true, beq_iff_eq] at hadm
    obtain ⟨⟨-, hn⟩, hf⟩ := hadm
    exact mapSamples_keepsOutside h hf (Desc.raster_of_nbit16 h.dst hn) hn _ _ m
  | untile8 => exact bodyUntile8_keepsOutside h hadm m
  | tile8 => exact bodyTile8_keepsOutside h hadm m
  | sp2p => exact bodySp2p_keepsOutside h hadm (hdepth rfl) m
  | p2sp => exact bodyP2sp_keepsOutside h hadm (hdepth rfl) m
  | pk2p => exact bodyPk2p_keepsOutside h hadm (hdepth rfl) m
  | p2pk => exact bodyP2pk_keepsOutside h hadm (hdepth rfl) m
  | resample => exact bodyResample_keepsOutside h hadm (hdepth rfl) m
  | rectcopy => exact bodyRectcopy_keepsOutside h hadm (hdepth rfl) m

end

end Sys2Proof.Machine
end

section
/-! PROOFS. What the primitive commands leave unchanged, and when they complete (20_memory.md R72, 41_codec.md R120,
R121). -/

namespace Sys2Proof.Machine

/-! ### Regions -/

theorem Region.contains_iff {r : Region} {a : Nat} : r.contains a = true ↔ r.base ≤ a ∧ a < r.base + r.size := by
  simp [Region.contains]

theorem Region.overlaps_iff {p q : Region} :
    p.overlaps q = true ↔ p.base < q.base + q.size ∧ q.base < p.base + p.size := by
  simp [Region.overlaps]

theorem Region.not_contains_of_disjoint {p q : Region} {a : Nat} (h : p.overlaps q = false) (hp : p.contains a = true) :
    q.contains a = false := by
  rw [Region.contains_iff] at hp
  rw [← Bool.not_eq_true, Region.overlaps_iff] at h
  rw [← Bool.not_eq_true, Region.contains_iff]
  omega

/-- What changes only natural bytes of a laid-out frame changes only bytes of its region. -/
theorem keepsOutside.read_of_region {d : Desc} {m m' : Memory} (hk : keepsOutside d m m')
    (h : layout d.toRequest = .ok d.toDerived) {a : Nat} (ha : d.region.contains a = false) :
    Memory.read m' a = Memory.read m a := by
  refine hk a fun hnat => ?_
  rw [Region.contains_iff.mpr (Desc.naturalByte.inRegion h hnat)] at ha
  cases ha

/-! ### A primitive command -/

/-- Memory after a primitive command: as it was, or what the body leaves once every check has passed. -/
theorem exec_prim_mem {p : Prim} {s t : State} (h : exec p.instr s = .next t) :
    t.mem = s.mem ∨ s.bankS.valid = true ∧ s.bankD.valid = true ∧
      checkPrimitive p.primitive s.bankS.desc s.bankD.desc = none ∧
      t.mem = p.primitive.body s.bankS.desc s.bankD.desc s.mem := by
  rw [exec_prim] at h
  rcases runPrimitive_cases p.primitive s with ⟨-, e⟩ | ⟨c, -, -, -, e⟩ | ⟨hS, hD, hc, -, -, e⟩ | ⟨-, -, -, -, e⟩ <;>
    rw [e] at h <;> cases h
  · exact .inl rfl
  · exact .inl rfl
  · exact .inr ⟨hS, hD, hc, rfl⟩

/-- Two sound valid banks that pass the checks of a primitive hold a frame pair. -/
theorem State.framePair {s : State} (hs : s.OperandsSound) (hS : s.bankS.valid = true) (hD : s.bankD.valid = true)
    (hw : s.bankS.desc.width = s.bankD.desc.width) (hh : s.bankS.desc.height = s.bankD.desc.height) :
    FramePair s.bankS.desc s.bankD.desc :=
  ⟨Bank.sound_layout hs.1 hS, Bank.sound_layout hs.2 hD, hw, hh⟩

/-- Settles O25: the body writes natural bytes of the destination only, and the overlap check keeps the source region
away from them. -/
theorem primitivesWriteOnlyDestination : Obligations.PrimitivesWriteOnlyDestination := by
  intro p s t hs h
  rcases exec_prim_mem h with hm | ⟨hS, hD, hc, hm⟩
  · simp [hm]
  · obtain ⟨hadm, hw, hh, hdepth, -, -, hover⟩ := checkPrimitive_none hc
    have hpair := State.framePair hs hS hD hw hh
    have hkeep (a : Nat) (ha : s.bankD.region.contains a = false) : Memory.read t.mem a = Memory.read s.mem a := by
      rw [hm]
      exact (p.body_keepsOutside hpair hadm hdepth s.mem).read_of_region hpair.dst ha
    exact ⟨hkeep, fun a ha => hkeep a (Region.not_contains_of_disjoint hover ha)⟩

end Sys2Proof.Machine
end

section
/-! PROOFS. What `CONVERT` leaves unchanged: every step of a plan is a primitive between frames it admits, and writes the
scratch buffer of its turn (20_memory.md R72, 43_orchestrator.md R173 to R177). -/

namespace Sys2Proof.Machine

/-! ### Admissible frames, format by format -/

theorem Desc.eight_le_eab_iff {d : Desc} : 8 ≤ d.eab ↔ d.nlsb = 0 ∨ 8 ≤ d.nlsb := by
  unfold Desc.eab
  split <;> omega

/-- A semi-planar format and its planar base format. -/
theorem PixelFormat.semiplanar_base_iff {f b : PixelFormat} :
    f.isSemiplanar = true ∧ b = f.base ↔
      (f = .f420sp ∨ f = .f420spa) ∧ b = .f420p ∨ (f = .f422sp ∨ f = .f422spa) ∧ b = .f422p := by
  cases f <;> simp [PixelFormat.isSemiplanar, PixelFormat.base]

theorem PixelFormat.isPacked_iff {f : PixelFormat} : f.isPacked = true ↔ f = .fuyvy ∨ f = .fyuyv := by
  cases f <;> decide

theorem PixelFormat.isPlanar_iff {f : PixelFormat} : f.isPlanar = true ↔ f = .f420p ∨ f = .f422p := by
  cases f <;> decide

/-- A supported format that is neither its own base nor semi-planar is packed. -/
theorem PixelFormat.packed_of_ne_base {f : PixelFormat} (hsup : f.isSupported = true) (hne : f ≠ f.base)
    (hsp : f.isSemiplanar = false) : (f = .fuyvy ∨ f = .fyuyv) ∧ f.base = .f422p := by
  revert hsup hne hsp
  cases f <;> decide

theorem PixelFormat.base_of_supported {f : PixelFormat} (h : f.isSupported = true) :
    f.isMono = true ∧ f.base = .f400p ∨ f.isMono = false ∧ (f.base = .f420p ∨ f.base = .f422p) := by
  revert h
  cases f <;> decide

/-- Two supported formats, neither or both mono, whose base formats differ have planar base formats. -/
theorem PixelFormat.planar_of_base_ne {f f' : PixelFormat} (hsup : f.isSupported = true) (hsup' : f'.isSupported = true)
    (hmono : f.isMono = f'.isMono) (hne : f.base ≠ f'.base) :
    (f.base = .f420p ∨ f.base = .f422p) ∧ (f'.base = .f420p ∨ f'.base = .f422p) := by
  rcases base_of_supported hsup with ⟨hm, hb⟩ | ⟨hm, hb⟩
  · rcases base_of_supported hsup' with ⟨-, hb'⟩ | ⟨hm', -⟩
    · exact absurd (hb.trans hb'.symm) hne
    · rw [hm, hm'] at hmono
      cases hmono
  · rcases base_of_supported hsup' with ⟨hm', -⟩ | ⟨-, hb'⟩
    · rw [hm, hm'] at hmono
      cases hmono
    · exact ⟨hb, hb'⟩

/-- The admissibility predicate of each primitive, format by format (41_codec.md R124 to R133, 42_remapper.md R140 to
R158). -/
theorem Prim.admissible_iff {p : Prim} {s d : Desc} : p.primitive.admissible s d = true ↔ p.Admits s d := by
  cases p with
  | unpack10 => simp [primitive, primUnpack10, admissibleUnpack10, Prim.Admits, and_assoc]
  | pack10 => simp [primitive, primPack10, admissiblePack10, Prim.Admits, and_assoc]
  | narrow => simp [primitive, primNarrow, admissibleNarrow, Prim.Admits, and_assoc, Desc.eight_le_eab_iff]
  | widen => simp [primitive, primWiden, admissibleWiden, Prim.Admits, and_assoc, Desc.eight_le_eab_iff]
  | rescale16 => simp [primitive, primRescale16, admissibleRescale16, Prim.Admits, and_assoc]
  | untile8 => simp [primitive, primUntile8, admissibleUntile8, Prim.Admits, and_assoc]
  | tile8 => simp [primitive, primTile8, admissibleTile8, Prim.Admits, and_assoc]
  | sp2p => simp [primitive, primSp2p, admissibleSp2p, Prim.Admits, and_assoc, Desc.rmOk_iff,
      PixelFormat.semiplanar_base_iff]
  | p2sp => simp [primitive, primP2sp, admissibleP2sp, Prim.Admits, and_assoc, Desc.rmOk_iff,
      PixelFormat.semiplanar_base_iff]
  | pk2p => simp [primitive, primPk2p, admissiblePk2p, Prim.Admits, and_assoc, Desc.rmOk_iff,
      PixelFormat.isPacked_iff]
  | p2pk => simp [primitive, primP2pk, admissibleP2pk, Prim.Admits, and_assoc, Desc.rmOk_iff,
      PixelFormat.isPacked_iff]
  | resample => simp [primitive, primResample, admissibleResample, Prim.Admits, and_assoc, Desc.rmOk_iff,
      PixelFormat.isPlanar_iff]
  | rectcopy => simp [primitive, primRectcopy, admissibleRectcopy, Prim.Admits]

/-! ### A chain of admissible steps -/

/-- The capacity of the scratch buffer step `k` writes (43_orchestrator.md R174). -/
def PlanGoal.capacityAt (g : PlanGoal) (k : Nat) : Nat := if k % 2 = 0 then g.cap0 else g.cap1

theorem Planner.capacity_eq (p : Planner) (g : PlanGoal) : p.capacity g = g.capacityAt p.steps.length := rfl

/-- The step's primitive passes the checks of R121 that do not look at addresses, from the working descriptor `cur`. -/
structure PlanStep.Follows (x : PlanStep) (cur : Desc) : Prop where
  pair : FramePair cur x.next
  admissible : x.prim.primitive.admissible cur x.next = true
  depth : x.prim.primitive.equalDepth = true → cur.nbit = x.next.nbit

/-- A list of steps from `src` to the working descriptor `cur`, each following the one before, each laid out against the
scratch buffer of its turn (43_orchestrator.md R173, R174). -/
inductive PlanChain (g : PlanGoal) (src : Desc) : List PlanStep → Desc → Prop
  | nil : PlanChain g src [] src
  | snoc {steps : List PlanStep} {cur : Desc} {x : PlanStep} (h : PlanChain g src steps cur) (hx : x.Follows cur)
      (hcap : x.next.bufSize = g.capacityAt steps.length) : PlanChain g src (steps ++ [x]) x.next

theorem PlanChain.layout {g : PlanGoal} {src cur : Desc} {steps : List PlanStep} (h : PlanChain g src steps cur)
    (hs : layout src.toRequest = .ok src.toDerived) : layout cur.toRequest = .ok cur.toDerived := by
  cases h with
  | nil => exact hs
  | snoc _ hx _ => exact hx.pair.dst

theorem PlanChain.dims {g : PlanGoal} {src cur : Desc} {steps : List PlanStep} (h : PlanChain g src steps cur) :
    cur.width = src.width ∧ cur.height = src.height := by
  induction h with
  | nil => exact ⟨rfl, rfl⟩
  | snoc _ hx _ ih => exact ⟨hx.pair.width ▸ ih.1, hx.pair.height ▸ ih.2⟩

/-! ### Planning builds a chain -/

/-- What planning is given: laid-out descriptors of equal dimensions, neither or both mono (43_orchestrator.md R175). -/
structure PlanInput (g : PlanGoal) (src : Desc) : Prop where
  pair : FramePair src g.dst
  mono : src.fmt.isMono = g.dst.fmt.isMono

/-- The working representation stages S1 and S2 reach: raster, at the working depth and active bits
(43_orchestrator.md R173). -/
structure Desc.Working (g : PlanGoal) (d : Desc) : Prop where
  raster : d.tiled = false
  depth : d.nbit = g.workDepth
  active : d.nbit = 16 → d.eab = g.workEab

theorem PlanGoal.workDepth_eq (g : PlanGoal) :
    g.workDepth = 8 ∧ g.dst.nbit = 8 ∨ g.workDepth = 16 ∧ g.dst.nbit ≠ 8 := by
  unfold PlanGoal.workDepth
  split
  · exact .inl ⟨rfl, ‹_›⟩
  · exact .inr ⟨rfl, ‹_›⟩

theorem Desc.Working.rmOk {g : PlanGoal} {d : Desc} (h : d.Working g) : d.rmOk = true := by
  have hdepth := h.depth
  have := g.workDepth_eq
  exact Desc.rmOk_iff.mpr ⟨by omega, h.raster⟩

/-- A raster descriptor with the depth and active bits of a working one is a working one. -/
theorem Desc.Working.of_eq {g : PlanGoal} {d d' : Desc} (h : d.Working g) (ht : d'.tiled = false)
    (hn : d'.nbit = d.nbit) (hl : d'.nlsb = d.nlsb) : d'.Working g := by
  have heab : d'.eab = d.eab := by rw [Desc.eab, Desc.eab, hl]
  exact ⟨ht, hn ▸ h.depth, fun h16 => heab ▸ h.active (hn ▸ h16)⟩

theorem Desc.eab_eq_ten {d : Desc} (h : d.eab = 10) : d.nlsb = 10 := by
  unfold Desc.eab at h
  split at h
  · cases h
  · exact h

section
variable {g : PlanGoal} {src : Desc} {p q : Planner}

/-- One added step extends the chain. -/
theorem PlanChain.addStep (hin : PlanInput g src) (hp : PlanChain g src p.steps p.cur) {stage : Stage} {op : Prim}
    {r : Request} (h : p.addStep g stage op r = .ok q) (hw : p.cur.width = r.width) (hh : p.cur.height = r.height)
    (hdepth : op.primitive.equalDepth = true → p.cur.nbit = r.nbit)
    (hadm : ∀ der, op.primitive.admissible p.cur
      { toRequest := { r with bufSize := p.capacity g }, toDerived := der, base := 0 } = true) :
    PlanChain g src q.steps q.cur ∧
      ∃ der, q.cur = { toRequest := { r with bufSize := p.capacity g }, toDerived := der, base := 0 } := by
  obtain ⟨der, hl, hcur, hsteps⟩ := addStep_ok h
  rw [hsteps, hcur]
  exact ⟨hp.snoc (x := { stage := stage, prim := op, next := _ })
    ⟨⟨hp.layout hin.pair.src, hl, hw, hh⟩, hadm der, hdepth⟩ (p.capacity_eq g), der, rfl⟩

theorem planS1_chain (hin : PlanInput g src) (hp : PlanChain g src p.steps p.cur) (h : planS1 g p = .ok q) :
    PlanChain g src q.steps q.cur ∧ q.cur.fmt = p.cur.fmt ∧ q.cur.tiled = false ∧
      (q.cur.nbit = 8 ∨ q.cur.nbit = 16) := by
  have hlay := hp.layout hin.pair.src
  unfold planS1 at h
  split at h
  · rename_i hn
    obtain ⟨hq, der, hcur⟩ := hp.addStep hin h rfl rfl nofun fun _ => Prim.admissible_iff.mpr ⟨hn, rfl, rfl, rfl⟩
    refine ⟨hq, ?_⟩
    rw [hcur]
    exact ⟨rfl, rfl, .inr rfl⟩
  · split at h
    · rename_i hn
      obtain ⟨hq, der, hcur⟩ :=
        hp.addStep hin h rfl rfl nofun fun _ => Prim.admissible_iff.mpr ⟨hn.1, hn.2, rfl, rfl, rfl⟩
      refine ⟨hq, ?_⟩
      rw [hcur]
      exact ⟨rfl, rfl, .inl rfl⟩
    · rename_i h10 h8
      cases h
      have hn := Desc.nbit_of_layout hlay
      refine ⟨hp, rfl, Bool.eq_false_iff.mpr fun ht => ?_, by omega⟩
      have := Desc.tile_of_layout hlay ht
      exact h8 ⟨by omega, ht⟩

theorem planS2_chain (hin : PlanInput g src) (hp : PlanChain g src p.steps p.cur) (ht : p.cur.tiled = false)
    (hn : p.cur.nbit = 8 ∨ p.cur.nbit = 16) (h : planS2 g p = .ok q) :
    PlanChain g src q.steps q.cur ∧ q.cur.fmt = p.cur.fmt ∧ q.cur.Working g := by
  unfold planS2 at h
  split at h
  · rename_i hd
    split at h
    · cases h
    · rename_i hab
      obtain ⟨hq, der, hcur⟩ := hp.addStep hin h rfl rfl nofun fun _ =>
        Prim.admissible_iff.mpr ⟨hd.1, rfl, rfl, rfl, Desc.eight_le_eab_iff.mp (Nat.le_of_not_lt hab)⟩
      refine ⟨hq, ?_⟩
      rw [hcur]
      exact ⟨rfl, rfl, hd.2.symm, nofun⟩
  · split at h
    · rename_i hd
      split at h
      · cases h
      · rename_i hab
        obtain ⟨hq, der, hcur⟩ := hp.addStep hin h rfl rfl nofun fun _ =>
          Prim.admissible_iff.mpr ⟨hd.1, ht, rfl, rfl, Desc.eight_le_eab_iff.mp (Nat.le_of_not_lt hab)⟩
        refine ⟨hq, ?_⟩
        rw [hcur]
        exact ⟨rfl, rfl, hd.2.symm, fun _ => rfl⟩
    · split at h
      · rename_i hd
        obtain ⟨hq, der, hcur⟩ :=
          hp.addStep hin h rfl rfl nofun fun _ => Prim.admissible_iff.mpr ⟨hd.1, rfl, rfl⟩
        refine ⟨hq, ?_⟩
        rw [hcur]
        exact ⟨rfl, rfl, hd.2.1.symm, fun _ => rfl⟩
      · rename_i h168 h816 heab
        cases h
        have hdepth := g.workDepth_eq
        exact ⟨hp, rfl, ht, by omega, fun h16 => by_contra fun hne => heab ⟨h16, by omega, hne⟩⟩

/-! Stage S3 goes from the source's format by way of the base formats to the destination's. -/

theorem planS3a_chain (hin : PlanInput g src) (hp : PlanChain g src p.steps p.cur) (hwork : p.cur.Working g)
    (hne : p.cur.fmt ≠ g.dst.fmt) (h : planS3a g p = .ok q) :
    PlanChain g src q.steps q.cur ∧ q.cur.fmt = p.cur.fmt.base ∧ q.cur.Working g := by
  unfold planS3a at h
  split at h
  · rename_i hd
    have hsup := Desc.supported_of_layout (hp.layout hin.pair.src)
    have hraster : p.cur.ByteRaster := Desc.rmOk_iff.mp hwork.rmOk
    obtain ⟨hq, der, hcur⟩ := hp.addStep hin h rfl rfl (fun _ => rfl) fun _ => by
      split
      · rename_i hsp
        exact Prim.admissible_iff.mpr ⟨hraster, ⟨hraster.1, rfl⟩, PixelFormat.semiplanar_base_iff.mp ⟨hsp, rfl⟩⟩
      · rename_i hsp
        exact Prim.admissible_iff.mpr
          ⟨hraster, ⟨hraster.1, rfl⟩, PixelFormat.packed_of_ne_base hsup hd.2 (Bool.eq_false_iff.mpr hsp)⟩
    refine ⟨hq, ?_⟩
    rw [hcur]
    exact ⟨rfl, hwork.of_eq rfl rfl rfl⟩
  · rename_i hd
    cases h
    exact ⟨hp, by_contra fun hb => hd ⟨hne, hb⟩, hwork⟩

theorem planS3b_chain (hin : PlanInput g src) (hp : PlanChain g src p.steps p.cur) (hwork : p.cur.Working g)
    (hfmt : p.cur.fmt = src.fmt.base) (h : planS3b g p = .ok q) :
    PlanChain g src q.steps q.cur ∧ q.cur.fmt = g.dst.fmt.base ∧ q.cur.Working g := by
  unfold planS3b at h
  split at h
  · rename_i hne
    have hraster : p.cur.ByteRaster := Desc.rmOk_iff.mp hwork.rmOk
    obtain ⟨hs, hd⟩ := PixelFormat.planar_of_base_ne (Desc.supported_of_layout hin.pair.src)
      (Desc.supported_of_layout hin.pair.dst) hin.mono (hfmt ▸ hne.symm)
    obtain ⟨hq, der, hcur⟩ := hp.addStep hin h rfl rfl (fun _ => rfl) fun _ =>
      Prim.admissible_iff.mpr ⟨hraster, ⟨hraster.1, rfl⟩, hfmt ▸ hs, hd⟩
    refine ⟨hq, ?_⟩
    rw [hcur]
    exact ⟨rfl, hwork.of_eq rfl rfl rfl⟩
  · rename_i heq
    cases h
    exact ⟨hp, (not_not.mp heq).symm, hwork⟩

theorem planS3c_chain (hin : PlanInput g src) (hp : PlanChain g src p.steps p.cur) (hwork : p.cur.Working g)
    (hfmt : p.cur.fmt = g.dst.fmt.base) (h : planS3c g p = .ok q) :
    PlanChain g src q.steps q.cur ∧ q.cur.fmt = g.dst.fmt ∧ q.cur.Working g := by
  unfold planS3c at h
  split at h
  · rename_i hne
    have hsup := Desc.supported_of_layout hin.pair.dst
    have hraster : p.cur.ByteRaster := Desc.rmOk_iff.mp hwork.rmOk
    obtain ⟨hq, der, hcur⟩ := hp.addStep hin h rfl rfl (fun _ => rfl) fun _ => by
      split
      · rename_i hsp
        exact Prim.admissible_iff.mpr ⟨hraster, ⟨hraster.1, rfl⟩, PixelFormat.semiplanar_base_iff.mp ⟨hsp, hfmt⟩⟩
      · rename_i hsp
        rw [hfmt] at hne
        obtain ⟨hpk, hb⟩ := PixelFormat.packed_of_ne_base hsup hne (Bool.eq_false_iff.mpr hsp)
        exact Prim.admissible_iff.mpr ⟨hraster, ⟨hraster.1, rfl⟩, hpk, hfmt.trans hb⟩
    refine ⟨hq, ?_⟩
    rw [hcur]
    exact ⟨rfl, hwork.of_eq rfl rfl rfl⟩
  · rename_i heq
    cases h
    exact ⟨hp, (not_not.mp heq).symm, hwork⟩

theorem planS3_chain (hin : PlanInput g src) (hp : PlanChain g src p.steps p.cur) (hwork : p.cur.Working g)
    (hfmt : p.cur.fmt = src.fmt) (h : planS3 g p = .ok q) :
    PlanChain g src q.steps q.cur ∧ q.cur.fmt = g.dst.fmt ∧ q.cur.Working g := by
  unfold planS3 at h
  split at h
  · rename_i hne
    obtain ⟨p₂, h, hc⟩ := PlanResult.bind_ok h
    obtain ⟨p₁, ha, hb⟩ := PlanResult.bind_ok h
    obtain ⟨hp₁, hfmt₁, hwork₁⟩ := planS3a_chain hin hp hwork hne ha
    obtain ⟨hp₂, hfmt₂, hwork₂⟩ := planS3b_chain hin hp₁ hwork₁ (hfmt ▸ hfmt₁) hb
    exact planS3c_chain hin hp₂ hwork₂ hfmt₂ hc
  · rename_i heq
    cases h
    exact ⟨hp, not_not.mp heq, hwork⟩

/-- After stage S4 the working descriptor has the requested format, depth and tiling. -/
theorem planS4_chain (hin : PlanInput g src) (hp : PlanChain g src p.steps p.cur) (hwork : p.cur.Working g)
    (hfmt : p.cur.fmt = g.dst.fmt) (h : planS4 g p = .ok q) :
    PlanChain g src q.steps q.cur ∧ q.cur.fmt = g.dst.fmt ∧ q.cur.nbit = g.dst.nbit ∧ q.cur.tiled = g.dst.tiled := by
  have hdepth := hwork.depth
  have hgoal := g.workDepth_eq
  unfold planS4 at h
  split at h
  · rename_i h10
    have h16 : p.cur.nbit = 16 := by omega
    have heab : g.workEab = 10 := by simp [PlanGoal.workEab, PlanGoal.workNlsb, h10]
    have hnlsb := Desc.eab_eq_ten ((hwork.active h16).trans heab)
    obtain ⟨hq, der, hcur⟩ :=
      hp.addStep hin h rfl rfl nofun fun _ => Prim.admissible_iff.mpr ⟨h16, hnlsb, rfl, hfmt⟩
    refine ⟨hq, ?_⟩
    rw [hcur]
    exact ⟨rfl, h10.symm, rfl⟩
  · split at h
    · rename_i h8
      obtain ⟨hq, der, hcur⟩ := hp.addStep hin h rfl rfl nofun fun _ =>
        Prim.admissible_iff.mpr ⟨by omega, hwork.raster, rfl, rfl, hfmt⟩
      refine ⟨hq, ?_⟩
      rw [hcur]
      exact ⟨rfl, h8.1.symm, h8.2.symm⟩
    · rename_i h10 h8
      cases h
      have hn := Desc.nbit_of_layout hin.pair.dst
      refine ⟨hp, hfmt, by omega, hwork.raster.trans (Eq.symm (Bool.eq_false_iff.mpr fun ht => ?_))⟩
      have := Desc.tile_of_layout hin.pair.dst ht
      exact h8 ⟨by omega, ht⟩

theorem planStages_chain (hin : PlanInput g src) (h : planStages g { steps := [], cur := src } = .ok q) :
    PlanChain g src q.steps q.cur ∧ q.cur.fmt = g.dst.fmt ∧ q.cur.nbit = g.dst.nbit ∧ q.cur.tiled = g.dst.tiled := by
  obtain ⟨p₃, h, h4⟩ := PlanResult.bind_ok h
  obtain ⟨p₂, h, h3⟩ := PlanResult.bind_ok h
  obtain ⟨p₁, h1, h2⟩ := PlanResult.bind_ok h
  obtain ⟨hp₁, hfmt₁, ht, hn⟩ := planS1_chain hin .nil h1
  obtain ⟨hp₂, hfmt₂, hwork₂⟩ := planS2_chain hin hp₁ ht hn h2
  obtain ⟨hp₃, hfmt₃, hwork₃⟩ := planS3_chain hin hp₂ hwork₂ (hfmt₂.trans hfmt₁) h3
  exact planS4_chain hin hp₃ hwork₃ hfmt₃ h4

/-- Every plan is a chain of admissible steps from the source (43_orchestrator.md R173, R176). -/
theorem plan_chain (hin : PlanInput g src) (h : plan src g = .ok q) : PlanChain g src q.steps q.cur := by
  obtain ⟨p, h, h5⟩ := PlanResult.bind_ok h
  have hfront : PlanChain g src p.steps p.cur ∧ p.cur.fmt = g.dst.fmt ∧ p.cur.nbit = g.dst.nbit ∧
      p.cur.tiled = g.dst.tiled := by
    split at h
    · exact planStages_chain hin h
    · rename_i hneed
      cases h
      simp only [planNeed, Bool.or_eq_true, bne_iff_ne, not_or, not_not] at hneed
      exact ⟨.nil, hneed.1.1.1, hneed.1.1.2, hneed.2⟩
  obtain ⟨hp, hfmt, hn, ht⟩ := hfront
  unfold planS5 at h5
  split at h5
  · exact (hp.addStep hin h5 (hp.dims.1.trans hin.pair.width) (hp.dims.2.trans hin.pair.height) (fun _ => hn)
      fun _ => Prim.admissible_iff.mpr ⟨hfmt, ht⟩).1
  · cases h5
    exact hp

end

/-! ### Running a chain -/

/-- The scratch buffer step `k` writes (43_orchestrator.md R177). -/
def State.scratch (s : State) (k : Nat) : Region := if k % 2 = 0 then s.scr0 else s.scr1

/-- The fixed inputs `CONVERT` gives planning (43_orchestrator.md R175). -/
def State.planGoal (s : State) : PlanGoal := { dst := s.bankD.desc, cap0 := s.scr0Cap.toNat, cap1 := s.scr1Cap.toNat }

theorem State.scratch_eq (s : State) (k : Nat) :
    s.scratch k = { base := s.scratchBase k, size := s.planGoal.capacityAt k } := by
  unfold State.scratch State.scratchBase PlanGoal.capacityAt
  split <;> rfl

theorem FramePair.setBase {s d : Desc} (h : FramePair s d) (a b : Nat) :
    FramePair { s with base := a } { d with base := b } := ⟨h.src, h.dst, h.width, h.height⟩

theorem Prim.admissible_setBase (p : Prim) (s d : Desc) (a b : Nat) :
    p.primitive.admissible { s with base := a } { d with base := b } = p.primitive.admissible s d := by
  cases p <;> rfl

/-- A step that follows the working descriptor writes only the scratch buffer it was laid out for. -/
theorem PlanStep.Follows.read_body {s : State} {x : PlanStep} {cur : Desc} {k : Nat} (h : x.Follows cur)
    (hcap : x.next.bufSize = s.planGoal.capacityAt k) (a : Nat) (m : Memory) {b : Nat}
    (hb : (s.scratch k).contains b = false) :
    Memory.read (x.prim.primitive.body { cur with base := a } { x.next with base := s.scratchBase k } m) b =
      Memory.read m b := by
  have hpair := h.pair.setBase a (s.scratchBase k)
  have hkeep := x.prim.body_keepsOutside hpair (by rw [Prim.admissible_setBase, h.admissible]) h.depth m
  refine hkeep.read_of_region hpair.dst (Bool.eq_false_iff.mpr fun hin => ?_)
  have hsize : x.next.ioSize ≤ s.planGoal.capacityAt k := hcap ▸ Desc.ioSize_le_bufSize h.pair.dst
  rw [State.scratch_eq, ← Bool.not_eq_true, Region.contains_iff] at hb
  obtain ⟨hlo, hhi⟩ := Region.contains_iff.mp hin
  simp only [Desc.region] at hlo hhi hb
  omega

/-- Running a chain changes only the scratch buffers of its steps; the last descriptor is the chain's, somewhere. -/
theorem PlanChain.runSteps_read {s : State} {src cur : Desc} {steps : List PlanStep}
    (h : PlanChain s.planGoal src steps cur) (m : Memory) :
    (∃ a, (runSteps s 0 src steps m).2 = { cur with base := a }) ∧
      ∀ b, (∀ k, k < steps.length → (s.scratch k).contains b = false) →
        Memory.read (runSteps s 0 src steps m).1 b = Memory.read m b := by
  induction h with
  | nil => exact ⟨⟨src.base, rfl⟩, fun _ _ => rfl⟩
  | @snoc steps cur x _ hx hcap ih =>
    obtain ⟨⟨a, hcur⟩, hmem⟩ := ih
    rw [runSteps_append, hcur]
    simp only [runSteps, Nat.zero_add]
    refine ⟨⟨_, rfl⟩, fun b hb => ?_⟩
    rw [List.length_append, List.length_singleton] at hb
    rw [hx.read_body hcap a _ (hb _ (Nat.lt_succ_self _))]
    exact hmem b fun k hk => hb k (Nat.lt_succ_of_lt hk)

/-! ### `CONVERT` -/

/-- The steps of a conversion that passes phase 1 are a chain from the source. -/
theorem convertPlan_chain {s : State} (hs : s.OperandsSound) {steps : List PlanStep} (h : convertPlan s = .ok steps) :
    ∃ cur, PlanChain s.planGoal s.bankS.desc steps cur := by
  obtain ⟨hS, hD, hmono, hw, hh, -, -, p, rfl, hp⟩ := convertPlan_ok h
  exact ⟨p.cur, plan_chain ⟨State.framePair hs hS hD hw hh, hmono⟩ hp⟩

/-- Memory after `CONVERT`: as it was, or what the steps leave once phase 1 has passed. -/
theorem exec_convert_mem {s t : State} (h : exec .convert s = .next t) :
    t.mem = s.mem ∨
      ∃ steps, convertPlan s = .ok steps ∧ t.mem = (runSteps s 0 s.bankS.desc steps s.mem).1 := by
  rcases execConvert_cases s with ⟨c, g, -, e⟩ | ⟨steps, hp, -, e⟩ | ⟨steps, -, -, e⟩ <;>
    rw [exec, e] at h <;> cases h
  · exact .inl rfl
  · exact .inr ⟨steps, hp, rfl⟩

/-- The scratch buffers a conversion writes do not meet the source frame (43_orchestrator.md R175, R182). -/
theorem convertPlan_scratch_apart {s : State} {steps : List PlanStep} (h : convertPlan s = .ok steps) {k : Nat}
    (hk : k < steps.length) : s.bankS.region.overlaps (s.scratch k) = false := by
  obtain ⟨-, -, -, -, -, -, hover, -⟩ := convertPlan_ok h
  unfold State.convertRegions at hover
  rw [if_neg (by omega)] at hover
  unfold State.scratch
  split at hover
  · have hk0 : k = 0 := by omega
    subst hk0
    simpa [anyOverlap] using hover
  · simp only [anyOverlap, List.any_cons, List.any_nil, Bool.or_false, Bool.or_eq_false_iff] at hover
    split
    · exact hover.1.1
    · exact hover.1.2

/-- Settles O26: a conversion is a chain of steps, each of which writes the scratch buffer of its turn. -/
theorem convertWritesOnlyScratch : Obligations.ConvertWritesOnlyScratch := by
  intro s t hs h
  rcases exec_convert_mem h with hm | ⟨steps, hp, hm⟩
  · simp [hm]
  · obtain ⟨cur, hchain⟩ := convertPlan_chain hs hp
    obtain ⟨-, hread⟩ := hchain.runSteps_read s.mem
    rw [hm]
    refine ⟨fun a h0 h1 => hread a fun k _ => ?_, fun a ha => hread a fun k hk => ?_⟩
    · unfold State.scratch
      split
      · exact h0
      · exact h1
    · exact Region.not_contains_of_disjoint (convertPlan_scratch_apart hp hk) ha

end Sys2Proof.Machine
end

section
/-! PROOFS. What memory holds after the codec's loops: values written and read back, bit strings and the accumulator of
`unpack_row`, and `UNPACK10` (20_memory.md R62, R69, R71, 41_codec.md R123, R124). -/

namespace Sys2Proof.Machine

/-! ### Loops -/

theorem iterate_congr {α : Type} {n : Nat} {f g : Nat → α → α} (h : ∀ k, k < n → ∀ a, f k a = g k a) (a : α) :
    iterate n f a = iterate n g a := by
  induction n with
  | zero => rfl
  | succ n ih => rw [iterate_succ, iterate_succ, ih fun k hk => h k (Nat.lt_succ_of_lt hk), h n (Nat.lt_succ_self n)]

/-- If pass `k` establishes `P` wherever the loop's invariant `Q` holds, and every later pass keeps `P`, the loop
establishes `P`. -/
theorem iterate_sets {α : Type} {Q P : α → Prop} {n k : Nat} {f : Nat → α → α} {a : α} (hk : k < n) (h0 : Q a)
    (hinv : ∀ j, j < n → ∀ b, Q b → Q (f j b)) (hset : ∀ b, Q b → P (f k b))
    (hkeep : ∀ j, j ≠ k → j < n → ∀ b, P b → P (f j b)) : P (iterate n f a) :=
  iterate_establishes hk (hset _ (iterate_keeps h0 fun j hj => hinv j (hj.trans hk)))
    fun j hj => hkeep j hj.ne'

/-- The same for the loop over the rows of both frames, where row `(i, y)` establishes `P`. -/
theorem forRows_sets {Q P : Memory → Prop} {s d : Desc} {f : Plane → Plane → Nat → Memory → Memory} {m : Memory}
    {i y : Nat} (hi : i < (planes s).length) (hy : y < (plane s i).rows) (h0 : Q m)
    (hinv : ∀ j z, j < (planes s).length → z < (plane s j).rows → ∀ b, Q b → Q (f (plane s j) (plane d j) z b))
    (hset : ∀ b, Q b → P (f (plane s i) (plane d i) y b))
    (hkeep : ∀ j z, (j, z) ≠ (i, y) → j < (planes s).length → z < (plane s j).rows →
      ∀ b, P b → P (f (plane s j) (plane d j) z b)) : P (forRows s d f m) := by
  refine iterate_sets (Q := Q) hi h0 (fun j hj b hb => iterate_keeps hb (hinv j · hj)) (fun b hb => ?_)
    fun j hne hj b hb => iterate_keeps hb fun z => hkeep j z (fun he => hne (congrArg Prod.fst he)) hj
  exact iterate_sets (Q := Q) hy hb (hinv i · hi) hset
    fun z hne hz => hkeep i z (fun he => hne (congrArg Prod.snd he)) hi hz

/-! ### Values in memory -/

/-- `n` bytes that hold the little-endian digits of `v` read as `v` cut to `n` bytes (20_memory.md R62). -/
theorem Memory.readLE_of_bytes {m : Memory} {addr n v : Nat}
    (h : ∀ i, i < n → Memory.read m (addr + i) = BitVec.ofNat 8 (v >>> (8 * i))) :
    Memory.readLE m addr n = v % 2 ^ (8 * n) := by
  induction n with
  | zero => simp [Memory.readLE, Nat.mod_one]
  | succ n ih =>
    rw [Memory.readLE, ih fun i hi => h i (Nat.lt_succ_of_lt hi), h n (Nat.lt_succ_self n), BitVec.toNat_ofNat,
      Nat.shiftRight_eq_div_pow, Nat.mul_succ, pow_add, Nat.mod_mul, mul_comm (2 ^ (8 * n))]

theorem Memory.readLE_writeLE {m : Memory} (hm : Memory.wf m = true) {addr n : Nat} (v : Nat)
    (hfit : addr + n ≤ Config.memSize) : Memory.readLE (Memory.writeLE m addr n v) addr n = v % 2 ^ (8 * n) :=
  Memory.readLE_of_bytes fun _ hi => Memory.read_writeLE_inside hm v hi hfit

/-- A value is not touched by a write elsewhere. -/
theorem Memory.readLE_writeLE_apart (m : Memory) {addr n addr' n' : Nat} (v : Nat)
    (h : addr + n ≤ addr' ∨ addr' + n' ≤ addr) :
    Memory.readLE (Memory.writeLE m addr' n' v) addr n = Memory.readLE m addr n :=
  Memory.readLE_congr fun i hi => Memory.read_writeLE_outside m (by omega)

theorem wf_writeRow16 {m : Memory} (hm : Memory.wf m = true) (addr : Nat) (v : List Nat) :
    Memory.wf (writeRow16 m addr v) = true := by
  induction v generalizing m addr with
  | nil => exact hm
  | cons x rest ih => exact ih (Memory.wf_writeLE hm addr 2 x) _

/-- Sample `x` of a row written by `writeRow16`. -/
theorem readLE_writeRow16 {m : Memory} (hm : Memory.wf m = true) {addr : Nat} {v : List Nat}
    (hfit : addr + v.length * 2 ≤ Config.memSize) {x : Nat} (hx : x < v.length) :
    Memory.readLE (writeRow16 m addr v) (addr + x * 2) 2 = v.getD x 0 % 65536 := by
  induction v generalizing m addr x with
  | nil => cases hx
  | cons u rest ih =>
    rw [List.length_cons] at hfit hx
    rw [writeRow16]
    cases x with
    | zero =>
      have hrest : Memory.readLE (writeRow16 (Memory.writeLE m addr 2 u) (addr + 2) rest) addr 2 =
          Memory.readLE (Memory.writeLE m addr 2 u) addr 2 :=
        Memory.readLE_congr fun i hi => read_writeRow16_outside _ (by omega)
      simp only [Nat.zero_mul, Nat.add_zero]
      rw [hrest, Memory.readLE_writeLE hm u (by omega)]
      rfl
    | succ x =>
      rw [show addr + (x + 1) * 2 = addr + 2 + x * 2 by omega]
      exact ih (Memory.wf_writeLE hm addr 2 u) (by omega) (by omega)

/-! ### Sums of digits -/

/-- `n` digits of `w` bits each, the first the lowest, are below `2^(w*n)`. -/
theorem digits_lt {w : Nat} {v : Nat → Nat} (hv : ∀ k, v k < 2 ^ w) (n : Nat) :
    iterate n (fun k acc => acc + v k * 2 ^ (w * k)) 0 < 2 ^ (w * n) := by
  induction n with
  | zero => simp
  | succ n ih =>
    have hlast : (v n + 1) * 2 ^ (w * n) ≤ 2 ^ w * 2 ^ (w * n) := Nat.mul_le_mul_right _ (hv n)
    rw [iterate_succ, Nat.mul_succ, pow_add, mul_comm (2 ^ (w * n))]
    rw [Nat.succ_mul] at hlast
    omega

/-- Bit `j` of a sum of digits is a bit of digit `j / w`. -/
theorem testBit_digits {w : Nat} (hw : 0 < w) {v : Nat → Nat} (hv : ∀ k, v k < 2 ^ w) (n j : Nat) :
    (iterate n (fun k acc => acc + v k * 2 ^ (w * k)) 0).testBit j =
      (decide (j < w * n) && (v (j / w)).testBit (j % w)) := by
  induction n with
  | zero => simp
  | succ n ih =>
    rw [iterate_succ, add_comm, mul_comm, Nat.testBit_two_pow_mul_add _ (digits_lt hv n), ih]
    by_cases hj : j < w * n
    · have : j < w * (n + 1) := hj.trans_le (Nat.mul_le_mul_left w (Nat.le_succ n))
      simp [hj, this]
    · obtain ⟨k, rfl⟩ := Nat.exists_eq_add_of_le (Nat.le_of_not_lt hj)
      by_cases hk : k < w
      · simp [hk, Nat.mul_succ, Nat.mul_add_div hw, Nat.div_eq_of_lt hk, Nat.mod_eq_of_lt hk]
      · have hhigh : (v n).testBit k = false :=
          Nat.testBit_lt_two_pow ((hv n).trans_le (Nat.pow_le_pow_right two_pos (Nat.le_of_not_lt hk)))
        simp [hk, hhigh, Nat.mul_succ]

/-! ### Compact 10-bit rows -/

theorem bitField_ten (v : Nat) : bitField v 9 0 = v % 2 ^ 10 := rfl

/-- Bit `j` of a row of `l` bytes from `ra` on, bytes past the end counted as 0 (41_codec.md R123). -/
def streamBit (mem : Memory) (ra l j : Nat) : Bool :=
  decide (j < 8 * l) && (Memory.read mem (ra + j / 8)).toNat.testBit (j % 8)

theorem testBit_fetchWord (mem : Memory) (ra m l t : Nat) :
    (fetchWord mem ra m l).testBit t = (decide (t < 32) && streamBit mem ra l (32 * m + t)) := by
  have hdigits : fetchWord mem ra m l = iterate 4 (fun b acc =>
      acc + (if 4 * m + b < l then (Memory.read mem (ra + 4 * m + b)).toNat else 0) * 2 ^ (8 * b)) 0 := by
    refine iterate_congr (fun b _ acc => ?_) 0
    split <;> simp [Nat.shiftLeft_eq]
  rw [hdigits, testBit_digits (by decide) (fun b => by split <;> omega)]
  have hdiv : (32 * m + t) / 8 = 4 * m + t / 8 := by omega
  have hmod : (32 * m + t) % 8 = t % 8 := by omega
  have hend : 32 * m + t < 8 * l ↔ 4 * m + t / 8 < l := by omega
  simp only [streamBit, hdiv, hmod, hend, ← Nat.add_assoc]
  split_ifs with hin <;> simp [hin]

theorem rowBit_lt (m : Memory) (ra j : Nat) : rowBit m ra j < 2 := Nat.mod_lt _ two_pos

theorem compactSample_eq (m : Memory) (ra x : Nat) :
    compactSample m ra x = iterate 10 (fun k acc => acc + rowBit m ra (10 * x + k) * 2 ^ (1 * k)) 0 := by
  simp only [Nat.one_mul]
  rfl

theorem compactSample_lt (m : Memory) (ra x : Nat) : compactSample m ra x < 1024 := by
  rw [compactSample_eq]
  exact digits_lt (w := 1) (fun k => rowBit_lt m ra _) 10

theorem testBit_compactSample {m : Memory} {ra l x : Nat} (hl : 10 * (x + 1) ≤ 8 * l) (k : Nat) :
    (compactSample m ra x).testBit k = (decide (k < 10) && streamBit m ra l (10 * x + k)) := by
  rw [compactSample_eq, testBit_digits one_pos fun k => rowBit_lt m ra _]
  by_cases hk : k < 10
  · have hin : 10 * x + k < 8 * l := by omega
    simp [hk, hin, streamBit, rowBit, Nat.mod_one, Nat.testBit_eq_decide_div_mod_eq, Nat.shiftRight_eq_div_pow]
  · simp [hk]

/-- A sample depends only on the bytes that hold its bits. -/
theorem compactSample_congr {m m' : Memory} {ra x : Nat}
    (h : ∀ k, k < 10 → Memory.read m' (ra + (10 * x + k) / 8) = Memory.read m (ra + (10 * x + k) / 8)) :
    compactSample m' ra x = compactSample m ra x :=
  iterate_congr (fun k hk acc => by rw [rowBit, rowBit, h k hk]) 0

/-- The state of `unpack_row` before sample `x`: the accumulator holds the `nv` bits of the row that lie between the
samples already given and the words already fetched (41_codec.md R123, 10_state.md R46). -/
structure AccHolds (mem : Memory) (ra l x acc nv m : Nat) : Prop where
  count : nv + 10 * x = 32 * m
  bits : ∀ k, acc.testBit k = (decide (k < nv) && streamBit mem ra l (10 * x + k))

namespace AccHolds
variable {mem : Memory} {ra l x acc nv m : Nat}

theorem start (mem : Memory) (ra l : Nat) : AccHolds mem ra l 0 0 0 0 := ⟨rfl, fun k => by simp⟩

theorem refill (h : AccHolds mem ra l x acc nv m) :
    AccHolds mem ra l x (acc ||| (fetchWord mem ra m l <<< nv)) (nv + 32) (m + 1) := by
  obtain ⟨hcount, hbits⟩ := h
  refine ⟨by omega, fun k => ?_⟩
  rw [Nat.testBit_or, Nat.testBit_shiftLeft, hbits, testBit_fetchWord]
  by_cases hk : k < nv
  · have : k < nv + 32 := by omega
    simp [hk, this, Nat.not_le_of_lt hk]
  · have hpos : 32 * m + (k - nv) = 10 * x + k := by omega
    have hlt : k - nv < 32 ↔ k < nv + 32 := by omega
    simp [hk, Nat.le_of_not_lt hk, hpos, hlt]

theorem shift (h : AccHolds mem ra l x acc nv m) (hnv : 10 ≤ nv) :
    AccHolds mem ra l (x + 1) (acc >>> 10) (nv - 10) m := by
  obtain ⟨hcount, hbits⟩ := h
  refine ⟨by omega, fun k => ?_⟩
  have hpos : 10 * (x + 1) + k = 10 * x + (10 + k) := by omega
  have hlt : 10 + k < nv ↔ k < nv - 10 := by omega
  rw [Nat.testBit_shiftRight, hbits, hpos]
  simp only [hlt]

/-- With ten bits at hand, the low ten are the next sample. -/
theorem sample (h : AccHolds mem ra l x acc nv m) (hnv : 10 ≤ nv) (hl : 10 * (x + 1) ≤ 8 * l) :
    bitField acc 9 0 = compactSample mem ra x := by
  refine Nat.eq_of_testBit_eq fun k => ?_
  rw [bitField_ten, Nat.testBit_mod_two_pow, h.bits, testBit_compactSample hl]
  by_cases hk : k < 10
  · have : k < nv := by omega
    simp [hk, this]
  · simp [hk]

end AccHolds

theorem unpackFrom_eq {mem : Memory} {ra l x acc nv m : Nat} (h : AccHolds mem ra l x acc nv m) {n : Nat}
    (hl : 10 * (x + n) ≤ 8 * l) :
    unpackFrom mem ra l n acc nv m = (List.range' x n).map (compactSample mem ra) := by
  induction n generalizing x acc nv m with
  | zero => rfl
  | succ n ih =>
    rw [List.range'_succ, List.map_cons, unpackFrom]
    split
    · rw [h.refill.sample (by omega) (by omega), ih (h.refill.shift (by omega)) (by omega)]
    · rename_i hnv
      rw [h.sample (by omega) (by omega), ih (h.shift (by omega)) (by omega)]

/-- The accumulator procedure gives the closed form of every sample (20_memory.md R69, 41_codec.md R123). -/
theorem unpackRow_eq (mem : Memory) (ra n : Nat) : unpackRow mem ra n = (List.range n).map (compactSample mem ra) := by
  have hl : 10 * n ≤ ceilDiv (10 * n) 8 * 8 := (ceilDiv_le_iff (by decide)).mp le_rfl
  rw [List.range_eq_range']
  exact unpackFrom_eq (AccHolds.start mem ra _) (by omega)

theorem unpackRow_getD (mem : Memory) (ra : Nat) {n x : Nat} (hx : x < n) :
    (unpackRow mem ra n).getD x 0 = compactSample mem ra x := by
  simp [unpackRow_eq, hx]

/-! ### Samples of the destination -/

/-- The storage rows of a frame whose region lies in memory lie in memory. -/
theorem row_inMemory {d : Desc} (h : layout d.toRequest = .ok d.toDerived) (hmem : d.base + d.ioSize ≤ Config.memSize)
    {i y : Nat} (hi : i < (planes d).length) (hy : y < storageRows d (plane d i)) :
    rowAddr d (plane d i) y + rowBytes d (plane d i) ≤ Config.memSize := by
  have hrow := rowAddr_within h hi hy le_rfl
  have hend := plane_end_le_ioSize h hi
  omega

/-- A loop that writes the samples of a row one by one: sample `x` holds what pass `x` computed. -/
theorem readSample_of_loop {d : Desc} {p : Plane} {b n x y v : Nat} {g : Nat → Memory → Nat} {m : Memory}
    (hm : Memory.wf m = true) (hx : x < n) (hfit : sampleAddr d p b x y + b ≤ Config.memSize) {Q : Memory → Prop} (h0 : Q m)
    (hinv : ∀ z, z < n → ∀ m1, Q m1 → Q (Memory.writeLE m1 (sampleAddr d p b z y) b (g z m1)))
    (hg : ∀ m1, Q m1 → g x m1 = v) :
    Memory.readLE (iterate n (fun z m1 => Memory.writeLE m1 (sampleAddr d p b z y) b (g z m1)) m)
      (sampleAddr d p b x y) b = v % 2 ^ (8 * b) := by
  refine iterate_sets (Q := fun m1 => Memory.wf m1 = true ∧ Q m1)
    (P := fun m1 => Memory.readLE m1 (sampleAddr d p b x y) b = v % 2 ^ (8 * b)) hx ⟨hm, h0⟩ ?_ ?_ ?_
  · exact fun z hz m1 ⟨hwf, hq⟩ => ⟨Memory.wf_writeLE hwf _ _ _, hinv z hz m1 hq⟩
  · intro m1 ⟨hwf, hq⟩
    rw [Memory.readLE_writeLE hwf _ hfit, hg m1 hq]
  · intro z hne _ m1 hm1
    have hapart : x * b + b ≤ z * b ∨ z * b + b ≤ x * b := by
      rw [← Nat.succ_mul, ← Nat.succ_mul]
      rcases Nat.lt_or_gt_of_ne hne with h | h
      · exact .inr (Nat.mul_le_mul_right b h)
      · exact .inl (Nat.mul_le_mul_right b h)
    rw [Memory.readLE_writeLE_apart _ _ (by unfold sampleAddr; omega), hm1]

section
variable {d : Desc} {b : Nat} (ht : d.tiled = false) (hb : d.nbit = 8 * b)
include ht hb

/-- A change in another storage row leaves a sample alone. -/
theorem keepsRow.readSample (h : layout d.toRequest = .ok d.toDerived) {i x y j z : Nat} (hs : d.hasSample i x y)
    (hj : j < (planes d).length) (hz : z < (plane d j).rows) (hne : (j, z) ≠ (i, y)) {m m' : Memory}
    (hk : keepsRow d (plane d j) z m m') :
    Memory.readLE m' (sampleAddr d (plane d i) b x y) b = Memory.readLE m (sampleAddr d (plane d i) b x y) b := by
  obtain ⟨hi, hx, hy⟩ := hs
  rw [← storageRows_raster ht] at hy hz
  have hdis := storageRows_disjoint h hi hy hj hz hne
  have hfit := sample_fits ht hb hx
  refine Memory.readLE_congr fun o ho => hk _ ?_
  unfold sampleAddr
  omega

/-- A sample of a frame whose region lies in memory lies in memory. -/
theorem sample_inMemory (h : layout d.toRequest = .ok d.toDerived) (hmem : d.base + d.ioSize ≤ Config.memSize)
    {i x y : Nat} (hs : d.hasSample i x y) : sampleAddr d (plane d i) b x y + b ≤ Config.memSize := by
  obtain ⟨hi, hx, hy⟩ := hs
  have hrow := row_inMemory h hmem hi (by rwa [storageRows_raster ht])
  have hfit := sample_fits ht hb hx
  unfold sampleAddr
  omega

/-- A loop over rows, each pass of which stays in its row: a sample holds what the pass of its row wrote, from a memory
that differs from the first one inside the destination only. -/
theorem readSample_of_forRows {s : Desc} (hpair : FramePair s d) (hf : s.fmt = d.fmt)
    {f : Plane → Plane → Nat → Memory → Memory}
    (hrow : ∀ i y m1, i < (planes d).length → keepsRow d (plane d i) y m1 (f (plane s i) (plane d i) y m1))
    (hwf : ∀ ps pd y m1, Memory.wf m1 = true → Memory.wf (f ps pd y m1) = true) {m : Memory}
    (hm : Memory.wf m = true) {i x y v : Nat} (hs : d.hasSample i x y)
    (hset : ∀ m1, Memory.wf m1 = true → keepsOutside d m m1 →
      Memory.readLE (f (plane s i) (plane d i) y m1) (sampleAddr d (plane d i) b x y) b = v) :
    Memory.readLE (forRows s d f m) (sampleAddr d (plane d i) b x y) b = v := by
  obtain ⟨hi, -, hy⟩ := (hpair.hasSample_iff hf i x y).mpr hs
  have hdst {j z : Nat} (hj : j < (planes s).length) (hz : z < (plane s j).rows) :
      j < (planes d).length ∧ z < (plane d j).rows := by
    rw [hpair.length_eq hf] at hj
    exact ⟨hj, hpair.rows_eq hf hj ▸ hz⟩
  refine forRows_sets (Q := fun m1 => Memory.wf m1 = true ∧ keepsOutside d m m1)
    (P := fun m1 => Memory.readLE m1 (sampleAddr d (plane d i) b x y) b = v) hi hy ⟨hm, keepsOutside.refl d m⟩ ?_
    (fun m1 ⟨hwf1, hk⟩ => hset m1 hwf1 hk) ?_
  · intro j z hj hz m1 ⟨hwf1, hk⟩
    obtain ⟨hj, hz⟩ := hdst hj hz
    exact ⟨hwf _ _ _ _ hwf1, hk.trans ((hrow j z m1 hj).keepsOutside hj (by rwa [storageRows_raster ht]))⟩
  · intro j z hne hj hz m1 hm1
    obtain ⟨hj, hz⟩ := hdst hj hz
    rw [(hrow j z m1 hj).readSample ht hb hpair.dst hs hj hz hne, hm1]

end

/-! ### Frames ready for a primitive -/

theorem checkPrimitive_eq_none {p : Primitive} {s d : Desc} (hadm : p.admissible s d = true) (hw : s.width = d.width)
    (hh : s.height = d.height) (hdepth : p.equalDepth = true → s.nbit = d.nbit) (hs : s.region.inMemory = true)
    (hd : d.region.inMemory = true) (hover : s.region.overlaps d.region = false) : checkPrimitive p s d = none := by
  simp only [checkPrimitive, hadm, hw, hh, hs, hd, hover]
  simpa using hdepth

section
variable {s : State} (h : s.FramesReady)
include h

theorem State.FramesReady.pair : FramePair s.bankS.desc s.bankD.desc := by
  obtain ⟨-, hs, hS, hD, hw, hh, -⟩ := h
  exact State.framePair hs hS hD hw hh

/-- No byte of the source frame is a byte of the destination frame. -/
theorem State.FramesReady.apart {a : Nat} (ha : s.bankS.desc.naturalByte a) : ¬s.bankD.desc.naturalByte a := by
  intro hd
  have hS := Desc.naturalByte.inRegion h.pair.src ha
  have hD := Desc.naturalByte.inRegion h.pair.dst hd
  obtain ⟨-, -, -, -, -, -, -, -, hapart⟩ := h
  omega

/-- A primitive that admits the frames completes with its body's memory (41_codec.md R120, R121). -/
theorem State.FramesReady.completes {p : Prim} (hadm : p.Admits s.bankS.desc s.bankD.desc)
    (hdepth : p.primitive.equalDepth = true → s.bankS.desc.nbit = s.bankD.desc.nbit) :
    exec p.instr s = .next (s.doneWith (p.primitive.body s.bankS.desc s.bankD.desc s.mem)) := by
  have hpair := h.pair
  obtain ⟨-, -, hS, hD, hw, hh, hmS, hmD, hapart⟩ := h
  have hover : s.bankS.desc.region.overlaps s.bankD.desc.region = false := by
    rw [← Bool.not_eq_true, Region.overlaps_iff]
    simp only [Desc.region]
    omega
  have hcheck := checkPrimitive_eq_none (Prim.admissible_iff.mpr hadm) hw hh hdepth (Nat.ble_eq.mpr hmS)
    (Nat.ble_eq.mpr hmD) hover
  rw [exec_prim]
  rcases runPrimitive_cases p.primitive s with ⟨hv, -⟩ | ⟨c, -, -, hc, -⟩ | ⟨-, -, -, -, -, e⟩ | ⟨-, -, -, hm, -⟩
  · exact absurd ⟨hS, hD⟩ hv
  · rw [hcheck] at hc
    cases hc
  · exact e
  · exact absurd ⟨Desc.inMemory_of_region hpair.src hmS, Desc.inMemory_of_region hpair.dst hmD⟩ hm

end

/-! ### `UNPACK10` -/

/-- Sample `(x, y)` of a compact 10-bit frame, raster or tiled (20_memory.md R69, R71). -/
def sample10 (m : Memory) (s : Desc) (p : Plane) (x y : Nat) : Nat :=
  if s.tiled = true then tiledSample10 m s p x y else compactSample m (rowAddr s p y) x

theorem sample10_lt (m : Memory) (s : Desc) (p : Plane) (x y : Nat) : sample10 m s p x y < 1024 := by
  unfold sample10
  split
  · exact Nat.mod_lt _ (by decide)
  · exact compactSample_lt ..

/-- The bytes of a sample of a compact 10-bit frame are natural bytes of it, so they read as before in a memory that
differs elsewhere. -/
theorem sample10_congr {s : Desc} (h : layout s.toRequest = .ok s.toDerived) (hn : s.nbit = 10) {i x y : Nat}
    (hs : s.hasSample i x y) {m m' : Memory} (hm : ∀ a, s.naturalByte a → Memory.read m' a = Memory.read m a) :
    sample10 m' s (plane s i) x y = sample10 m s (plane s i) x y := by
  obtain ⟨hi, hx, hy⟩ := hs
  unfold sample10
  split
  · rename_i ht
    refine congrArg (fun v => v / 2 ^ (10 * (x % 3)) % 1024) (Memory.readLE_congr fun o ho => hm _ ?_)
    refine ⟨i, y / 4, x / 3 * 16 + (4 * (y % 4) + o), hi, ?_, ?_, by unfold tileWordAddr10 rowAddr; omega⟩
    · rw [storageRows_tiled h ht, lt_ceilDiv_iff (by decide)]
      omega
    · rw [rowBytes_tiled10 h ht hn]
      exact cell_fits ((lt_ceilDiv_iff (by decide)).mpr (by omega)) (by omega)
  · rename_i ht
    rw [Bool.not_eq_true] at ht
    refine compactSample_congr fun k hk => hm _ ⟨i, y, _, hi, by rwa [storageRows_raster ht], ?_, rfl⟩
    rw [rowBytes_compact ht hn, lt_ceilDiv_iff (by decide)]
    omega

theorem wf_unpack10Row (s d : Desc) (ps pd : Plane) (y : Nat) {m : Memory} (hm : Memory.wf m = true) :
    Memory.wf (unpack10Row s d ps pd y m) = true := by
  unfold unpack10Row
  split
  · exact iterate_wf (fun x _ m1 hm1 => Memory.wf_writeLE hm1 _ _ _) hm
  · exact wf_writeRow16 hm _ _

/-- One row of `UNPACK10`, from a memory that holds the source's samples: the row holds them. -/
theorem readSample_unpack10Row {s d : Desc} (hpair : FramePair s d) (hadm : Prim.unpack10.Admits s d)
    (hapart : ∀ a, s.naturalByte a → ¬d.naturalByte a) (hmem : d.base + d.ioSize ≤ Config.memSize) {i x y : Nat}
    (hs : s.hasSample i x y) {m m1 : Memory} (hm1 : Memory.wf m1 = true) (hk : keepsOutside d m m1) :
    Memory.readLE (unpack10Row s d (plane s i) (plane d i) y m1) (sampleAddr d (plane d i) 2 x y) 2 =
      sample10 m s (plane s i) x y := by
  obtain ⟨hn, hn', -, hf⟩ := hadm
  have ht := Desc.raster_of_nbit16 hpair.dst hn'
  have hsd := (hpair.hasSample_iff hf i x y).mp hs
  have hfit := sample_inMemory (b := 2) ht hn' hpair.dst hmem hsd
  have hcut : sample10 m s (plane s i) x y % 65536 = sample10 m s (plane s i) x y :=
    Nat.mod_eq_of_lt ((sample10_lt ..).trans (by decide))
  have hsame {m2 : Memory} (hk2 : keepsOutside d m m2) :
      sample10 m2 s (plane s i) x y = sample10 m s (plane s i) x y :=
    sample10_congr hpair.src hn hs fun a ha => hk2 a (hapart a ha)
  rw [← hcut]
  unfold unpack10Row
  split
  · rename_i hts
    refine readSample_of_loop (Q := keepsOutside d m) hm1 hs.2.1 hfit hk (fun z hz m2 hk2 => ?_) fun m2 hk2 => ?_
    · have hz' := (hpair.hasSample_iff hf i z y).mp ⟨hs.1, hz, hs.2.2⟩
      exact hk2.trans (writeSample_keepsOutside (b := 2) ht hn' hz' m2 _)
    · rw [← hsame hk2, sample10, if_pos hts, tiledSample10, bitField_ten, Nat.shiftRight_eq_div_pow]
      rfl
  · rename_i hts
    have hrow := row_inMemory hpair.dst hmem hsd.1 (by rw [storageRows_raster ht]; exact hsd.2.2)
    rw [rowBytes_raster (b := 2) ht hn', ← hpair.ws_eq hf hsd.1] at hrow
    rw [sampleAddr, readLE_writeRow16 hm1 (by rwa [unpackRow_length]) (by rw [unpackRow_length]; exact hs.2.1),
      unpackRow_getD _ _ hs.2.1, ← hsame hk, sample10, if_neg hts]

/-- Settles O38: each pass over a row writes the row's samples, and the source stays as it is. -/
theorem unpack10Result : Obligations.Unpack10Result := by
  rintro s S D rfl rfl hready hn hn' hl hf
  have hpair := hready.pair
  have hadm : Prim.unpack10.Admits s.bankS.desc s.bankD.desc := ⟨hn, hn', hl, hf⟩
  have ht := Desc.raster_of_nbit16 hpair.dst hn'
  have hapart : ∀ a, s.bankS.desc.naturalByte a → ¬s.bankD.desc.naturalByte a := fun a => hready.apart
  have hcompletes := hready.completes hadm nofun
  obtain ⟨hwf, -, -, -, -, -, -, hmem, -⟩ := hready
  refine ⟨_, hcompletes, Prim.body_keepsOutside hpair .unpack10 (Prim.admissible_iff.mpr hadm) nofun s.mem,
    fun i x y hs => ?_⟩
  refine readSample_of_forRows (b := 2) ht hn' hpair hf (fun j z m1 hj => ?_)
    (fun ps pd z m1 hm1 => wf_unpack10Row _ _ ps pd z hm1) hwf ((hpair.hasSample_iff hf i x y).mp hs)
    fun m1 hm1 hk => readSample_unpack10Row hpair hadm hapart hmem hs hm1 hk
  exact unpack10Row_keepsRow ht hn' (hpair.ws_eq hf hj) z m1

end Sys2Proof.Machine
end

section
/-! PROOFS. The command word: its fields, the decoder as the inverse of the encoder, and what an illegal word does
(30_encoding.md R80, R81, R84). -/

namespace Sys2Proof

/-! ### The fields of a command word -/

@[simp] theorem rsvField_append (r : BitVec 24) (b : BitVec 8) : rsvField (r ++ b) = r :=
  BitVec.extractLsb'_append_eq_left

@[simp] theorem opcField_append (r : BitVec 24) (b : BitVec 8) : opcField (r ++ b) = b :=
  BitVec.extractLsb'_append_eq_right

/-- A command word is its `RSV` above its `OPC` (30_encoding.md R80). -/
theorem rsvField_append_opcField (w : Word) : rsvField w ++ opcField w = w :=
  (BitVec.extractLsb'_append_extractLsb'_eq_extractLsb' (by decide)).trans (BitVec.extractLsb'_eq_self)

/-! ### The decoder and the encoder -/

@[simp] theorem decodeOpcode_opcodeOf (i : Instr) : decodeOpcode (opcodeOf i) = some i := by
  cases i <;> rfl

/-- The opcode map names each command once (30_encoding.md R81). -/
theorem decodeOpcode_eq_some_iff {b : BitVec 8} {i : Instr} : decodeOpcode b = some i ↔ b = opcodeOf i := by
  refine ⟨fun h => ?_, fun h => h ▸ decodeOpcode_opcodeOf i⟩
  unfold decodeOpcode at h
  split at h <;> cases h
  all_goals exact BitVec.eq_of_toNat_eq ‹_›

theorem decode_eq_ok_iff_fields {w : Word} {i : Instr} :
    decode w = .ok i ↔ rsvField w = 0#24 ∧ decodeOpcode (opcField w) = some i := by
  unfold decode
  split
  · rename_i hrsv
    cases decodeOpcode (opcField w) <;> simp [hrsv]
  · rename_i hrsv
    simp [hrsv]

/-- The decoder is the inverse of the encoder: a word stands for a command exactly when it is the command's own word. -/
theorem decode_eq_ok_iff {w : Word} {i : Instr} : decode w = .ok i ↔ w = encode i := by
  rw [decode_eq_ok_iff_fields, decodeOpcode_eq_some_iff]
  refine ⟨fun ⟨hrsv, hopc⟩ => ?_, fun h => ?_⟩
  · rw [← rsvField_append_opcField w, hrsv, hopc, encode]
  · rw [h, encode, rsvField_append, opcField_append]
    exact ⟨rfl, rfl⟩

/-- Settles O2: both halves are the two directions of `decode_eq_ok_iff`. -/
theorem decodeEncodeAgree : Obligations.DecodeEncodeAgree :=
  fun _ _ => ⟨decode_eq_ok_iff.mpr rfl, fun _ => decode_eq_ok_iff.mp⟩

/-! ### The opcode map -/

/-- The commands in the order of the opcode map (30_encoding.md R81). -/
def Instr.all : List Instr :=
  [.nop, .layoutS, .layoutD, .copylayout, .unpack10, .pack10, .narrow, .widen, .rescale16, .untile8, .tile8, .sp2p,
    .p2sp, .pk2p, .p2pk, .resample, .rectcopy, .convert]

theorem Instr.mem_all (i : Instr) : i ∈ Instr.all := by
  cases i <;> decide

/-- A pair of the encoder's table is a command with its own word. -/
theorem Instr.mem_encodeTable_iff {w : Word} {i : Instr} :
    (w, i) ∈ Instr.all.map (fun j => (encode j, j)) ↔ w = encode i := by
  refine ⟨fun h => ?_, fun h => List.mem_map.mpr ⟨i, i.mem_all, by rw [h]⟩⟩
  obtain ⟨j, -, hj⟩ := List.mem_map.mp h
  obtain ⟨rfl, rfl⟩ := Prod.mk.inj hj
  rfl

/-- Settles O1: the 18 written-out pairs are the table the encoder makes, by evaluation. -/
theorem decodeAcceptsExactlyTheTable : Obligations.DecodeAcceptsExactlyTheTable :=
  fun _ _ => decode_eq_ok_iff.trans Instr.mem_encodeTable_iff.symm

end Sys2Proof

namespace Sys2Proof.Machine

/-! ### Illegal words -/

/-- A word that is no command's is rejected (30_encoding.md R84). -/
theorem decode_error_of_ne_encode {w : Word} (h : ∀ i, w ≠ encode i) : ∃ e, decode w = .error e := by
  rcases hd : decode w with e | i
  · exact ⟨e, rfl⟩
  · exact absurd (decode_eq_ok_iff.mp hd) (h i)

theorem step_of_illegal {s : State} {e : Reject} (hb : s.status.busy = true) (hw : s.wait = 0)
    (hd : decode s.cmd = .error e) : step s = .next (s.raiseError .illegal .none) := by
  rw [step_running hb hw, runCommand, hd]

/-- Settles O4: no command decodes from the word, so the step is error entry with `ILLEGAL`. -/
theorem illegalCommandCompletes : Obligations.IllegalCommandCompletes := by
  intro s hb hw hcmd
  obtain ⟨e, hd⟩ := decode_error_of_ne_encode hcmd
  exact step_of_illegal hb hw hd

end Sys2Proof.Machine
end

section
/-! PROOFS. The frame of a command: what each leaves unchanged, from the states it can leave (30_encoding.md R82,
41_codec.md R120, 43_orchestrator.md R175). -/

namespace Sys2Proof.Machine

/-- No primitive is one of the commands that touch no memory (20_memory.md R61). -/
theorem Prim.instr_touchesMemory (p : Prim) : p.instr ∉ [Instr.nop, .layoutS, .layoutD, .copylayout] := by
  cases p <;> decide

section
variable {s t : State} {i : Instr} (h : CommandResult s i t)
include h

/-- No command writes the registers outside `STATUS`, `ERRINFO` and the banks, nor the model's own fields. -/
theorem CommandResult.keeps_registers :
    t.cmd = s.cmd ∧ t.irqEn = s.irqEn ∧ t.scr0Base = s.scr0Base ∧ t.scr0Cap = s.scr0Cap ∧ t.scr1Base = s.scr1Base ∧
      t.scr1Cap = s.scr1Cap ∧ t.owned = s.owned ∧ t.wait = s.wait ∧ t.tCmds = s.tCmds ∧ t.inputs = s.inputs ∧
      t.regData = s.regData ∧ t.memData = s.memData ∧ t.epoch = s.epoch := by
  cases h <;> simp

/-- A layout stamped into bank `S` or `D` changes neither the source's request nor what the host alone writes. -/
theorem CommandResult.keeps_requests :
    t.bankS.request = s.bankS.request ∧ t.bankS.base = s.bankS.base ∧ t.bankD.bufSize = s.bankD.bufSize ∧
      t.bankD.base = s.bankD.base := by
  cases h <;> exact ⟨rfl, rfl, rfl, rfl⟩

theorem CommandResult.keeps_bankS (hi : i ≠ .layoutS) : t.bankS = s.bankS := by
  cases h with
  | layoutS => exact absurd rfl hi
  | _ => rfl

theorem CommandResult.keeps_bankD (hD : i ≠ .layoutD) (hC : i ≠ .copylayout) : t.bankD = s.bankD := by
  cases h with
  | layoutD => exact absurd rfl hD
  | copylayout => exact absurd rfl hC
  | _ => rfl

/-- What `CONVERT` reports, its result's bank and its fields of `STATUS`, no other command writes. -/
theorem CommandResult.keeps_convertReport (hi : i ≠ .convert) :
    t.bankW = s.bankW ∧ t.status.resbuf = s.status.resbuf ∧ t.status.nsteps = s.status.nsteps := by
  cases h with
  | convert => exact absurd rfl hi
  | _ => exact ⟨rfl, rfl, rfl⟩

theorem CommandResult.keeps_mem (hi : i ∈ [Instr.nop, .layoutS, .layoutD, .copylayout]) : t.mem = s.mem := by
  cases h with
  | primitive p => exact absurd hi p.instr_touchesMemory
  | convert => exact absurd hi (by decide)
  | _ => rfl

end

/-- Settles O24: each clause read off the states a command can leave. -/
theorem commandFrame : Obligations.CommandFrame := by
  intro i s t h
  have hr := exec_next h
  exact ⟨hr.keeps_registers, hr.keeps_requests, hr.keeps_bankS, hr.keeps_bankD, hr.keeps_convertReport, hr.keeps_mem⟩

end Sys2Proof.Machine
end

section
/-! PROOFS. The layout calculator: its checks as two groups, its formulas, the bounds and invariants of a laid-out
descriptor, and the chroma ratios (40_classifier_layout.md R107 to R118). -/

namespace Sys2Proof.Machine

/-! ### The format predicates, format by format -/

theorem PixelFormat.isSupported_eq_false_iff {f : PixelFormat} : f.isSupported = false ↔ f = .funsup := by
  cases f <;> decide

theorem PixelFormat.isMono_eq_false_iff {f : PixelFormat} : f.isMono = false ↔ f ≠ .f400p := by
  cases f <;> decide

theorem PixelFormat.is420_iff {f : PixelFormat} : f.is420 = true ↔ f = .f420p ∨ f = .f420sp ∨ f = .f420spa := by
  cases f <;> decide

theorem PixelFormat.isSemiplanar_iff {f : PixelFormat} :
    f.isSemiplanar = true ↔ f = .f420sp ∨ f = .f420spa ∨ f = .f422sp ∨ f = .f422spa := by
  cases f <;> decide

theorem PixelFormat.chromaPlanes_of_planar {f : PixelFormat} (h : f.isPlanar = true) : f.chromaPlanes = 2 := by
  simp [chromaPlanes, h]

theorem PixelFormat.chromaPlanes_of_semiplanar {f : PixelFormat} (h : f.isSemiplanar = true) : f.chromaPlanes = 1 := by
  revert h
  cases f <;> decide

theorem PixelFormat.not_semiplanar_of_planar {f : PixelFormat} (h : f.isPlanar = true) : f.isSemiplanar = false := by
  revert h
  cases f <;> decide

/-! ### The checks in two groups -/

/-- One of the checks L1 to L5 fails (40_classifier_layout.md R110). -/
abbrev Request.Unsupported (r : Request) : Prop :=
  (!r.fmt.isSupported) = true ∨ (r.nbit ≠ 8 ∧ r.nbit ≠ 10 ∧ r.nbit ≠ 16) ∨ r.nlsb > r.nbit ∨
    (r.tiled = true ∧ r.nbit = 16) ∨ (r.tiled = true ∧ r.fmt.isPacked = true)

/-- One of the checks L6 to L10 fails (40_classifier_layout.md R110). -/
abbrev Request.BadGeometry (r : Request) : Prop :=
  (r.width = 0 ∨ r.height = 0) ∨ ((!r.fmt.isMono) = true ∧ r.width % 2 = 1) ∨
    (r.fmt.is420 = true ∧ r.height % 2 = 1) ∨ (r.tiled = true ∧ r.tsz % 8 ≠ 0) ∨
    (r.tiled = true ∧ (!r.geometryLegal) = true)

/-- The ten checks raise one error for the first five and another for the last five. -/
theorem layoutCheck_eq (r : Request) :
    layoutCheck r = if r.Unsupported then some .unsup else if r.BadGeometry then some .geom else none := by
  simp only [layoutCheck, ite_or]

theorem layout_of_unsupported {r : Request} (h : r.Unsupported) : layout r = .error .unsup := by
  rw [layout, layoutCheck_eq, if_pos h]

theorem layout_of_badGeometry {r : Request} (h : ¬r.Unsupported) (hg : r.BadGeometry) : layout r = .error .geom := by
  rw [layout, layoutCheck_eq, if_neg h, if_pos hg]

theorem layoutCheck_of_legal {r : Request} (h : ¬r.Unsupported) (hg : ¬r.BadGeometry) : layoutCheck r = none := by
  rw [layoutCheck_eq, if_neg h, if_neg hg]

theorem layout_of_overflow {r : Request} (hc : layoutCheck r = none) (hs : r.bufSize < r.frameSize) :
    layout r = .error .alloc := by
  simp [layout, hc, hs]

/-- The geometry that check L10 refuses, depth by depth. -/
theorem Request.geometryLegal_eq_false_iff {r : Request} (hn : r.nbit = 8 ∨ r.nbit = 10) :
    r.geometryLegal = false ↔
      (r.nbit = 8 ∧ (r.tw, r.th, r.tsz) ≠ (8, 4, 32)) ∨ (r.nbit = 10 ∧ (r.tw, r.th, r.tsz) ≠ (3, 4, 16)) := by
  rcases hn with hn | hn <;> simp [Request.geometryLegal, hn]

theorem Request.unsupported_iff {r : Request} :
    r.Unsupported ↔ r.fmt = .funsup ∨ ¬(r.nbit = 8 ∨ r.nbit = 10 ∨ r.nbit = 16) ∨ r.nbit < r.nlsb ∨
      (r.tiled = true ∧ r.nbit = 16) ∨ (r.tiled = true ∧ (r.fmt = .fuyvy ∨ r.fmt = .fyuyv)) := by
  simp only [Request.Unsupported, Bool.not_eq_true', PixelFormat.isSupported_eq_false_iff, PixelFormat.isPacked_iff,
    not_or, gt_iff_lt, ne_eq]

/-- Depth 16 being refused before, a tiled frame that comes to check L10 has depth 8 or 10. -/
theorem Request.tiledDepth_of_supported {r : Request} (h : ¬r.Unsupported) (ht : r.tiled = true) :
    r.nbit = 8 ∨ r.nbit = 10 := by
  obtain ⟨-, hn, -, h16, -⟩ := by simpa only [not_or] using h
  have : r.nbit ≠ 16 := fun hn16 => h16 ⟨ht, hn16⟩
  omega

theorem Request.badGeometry_iff {r : Request} (h : ¬r.Unsupported) :
    r.BadGeometry ↔ r.width = 0 ∨ r.height = 0 ∨ (r.fmt ≠ .f400p ∧ r.width % 2 = 1) ∨
      ((r.fmt = .f420p ∨ r.fmt = .f420sp ∨ r.fmt = .f420spa) ∧ r.height % 2 = 1) ∨
      (r.tiled = true ∧ r.tsz % 8 ≠ 0) ∨
      (r.tiled = true ∧ ((r.nbit = 8 ∧ (r.tw, r.th, r.tsz) ≠ (8, 4, 32)) ∨
        (r.nbit = 10 ∧ (r.tw, r.th, r.tsz) ≠ (3, 4, 16)))) := by
  have hgeo := and_congr_right fun ht : r.tiled = true =>
    Request.geometryLegal_eq_false_iff (Request.tiledDepth_of_supported h ht)
  simp only [Request.BadGeometry, Bool.not_eq_true', hgeo, PixelFormat.isMono_eq_false_iff,
    PixelFormat.is420_iff, or_assoc]

/-- Settles O30: the two groups of checks, then the capacity. -/
theorem layoutErrorOrder : Obligations.LayoutErrorOrder := by
  refine ⟨⟨rfl, rfl⟩, fun r unsup geom hunsup hgeom => ?_⟩
  rw [hunsup, ← Request.unsupported_iff]
  refine ⟨layout_of_unsupported, fun hu => ?_, fun hu => ?_, fun hu => ?_⟩ <;>
    rw [hgeom, ← Request.badGeometry_iff hu]
  · exact layout_of_badGeometry hu
  · exact fun hg => layout_of_overflow (layoutCheck_of_legal hu hg)
  · exact fun hg => layout_of_checks (layoutCheck_of_legal hu hg)

/-! ### The formulas, raster and tiled -/

/-- `ceil_div` is the least quotient (00_scope.md R9). -/
theorem ceilDiv_isLeast (a : Nat) {b : Nat} (hb : 0 < b) :
    a ≤ ceilDiv a b * b ∧ ∀ q, a ≤ q * b → ceilDiv a b ≤ q :=
  ⟨(ceilDiv_le_iff hb).mp le_rfl, fun _ => (ceilDiv_le_iff hb).mpr⟩

theorem ceilDiv_mono {a a' : Nat} (h : a ≤ a') (b : Nat) : ceilDiv a b ≤ ceilDiv a' b :=
  Nat.div_le_div_right (Nat.sub_le_sub_right (Nat.add_le_add_right h b) 1)

theorem ceilDiv_mul (q : Nat) {b : Nat} (hb : 0 < b) : ceilDiv (q * b) b = q :=
  le_antisymm ((ceilDiv_le_iff hb).mpr le_rfl)
    (Nat.le_of_mul_le_mul_right ((ceilDiv_le_iff hb).mp le_rfl) hb)

/-- Storage rows of a chroma plane: tile rows of a tiled one, rows of a raster one (40_classifier_layout.md R109). -/
def Request.chromaStorageRows (r : Request) : Nat := if r.tiled then ceilDiv r.chromaRows r.th else r.chromaRows

/-- `uv_size` is a product in every case, the stride of a frame without chroma planes being 0. -/
theorem Request.chromaSize_eq (r : Request) : r.chromaSize = r.chromaStride * r.chromaStorageRows := by
  unfold Request.chromaSize Request.chromaStorageRows
  split_ifs with h0 <;> simp [h0]

section
variable {r : Request}

theorem Request.naturalStride_of_tiled (ht : r.tiled = true) : r.naturalStride = ceilDiv r.width r.tw * r.tsz := by
  simp [naturalStride, ht]

theorem Request.naturalStride_of_raster (ht : r.tiled = false) :
    r.naturalStride =
      if r.fmt = .fuyvy ∨ r.fmt = .fyuyv then 2 * ceilDiv (r.width * r.nbit) 8 else ceilDiv (r.width * r.nbit) 8 := by
  simp [naturalStride, ht, PixelFormat.isPacked_iff]

theorem Request.lumaRows_of_tiled (ht : r.tiled = true) : r.lumaRows = ceilDiv r.height r.th := by
  simp [lumaRows, ht]

theorem Request.lumaRows_of_raster (ht : r.tiled = false) : r.lumaRows = r.height := by
  simp [lumaRows, ht]

theorem Request.chromaStorageRows_of_tiled (ht : r.tiled = true) :
    r.chromaStorageRows = ceilDiv r.chromaRows r.th := by
  simp [chromaStorageRows, ht]

theorem Request.chromaStorageRows_of_raster (ht : r.tiled = false) : r.chromaStorageRows = r.chromaRows := by
  simp [chromaStorageRows, ht]

theorem Request.chromaStride_of_noChroma (h : r.fmt = .f400p ∨ r.fmt = .fuyvy ∨ r.fmt = .fyuyv) :
    r.chromaStride = 0 := by
  rcases h with h | h | h <;> simp [chromaStride, h, PixelFormat.isMono, PixelFormat.isPacked]

theorem Request.chromaStride_of_semiplanar (h : r.fmt.isSemiplanar = true) : r.chromaStride = r.lumaStride := by
  obtain ⟨hm, hp⟩ := PixelFormat.not_mono_packed_of_chromaPlanes
    (by rw [PixelFormat.chromaPlanes_of_semiplanar h]; exact one_pos)
  simp [chromaStride, h, hm, hp]

theorem Request.chromaStride_of_planar (h : r.fmt.isPlanar = true) :
    r.chromaStride = if r.tiled then ceilDiv (r.width / 2) r.tw * r.tsz else ceilDiv r.lumaStride 2 := by
  obtain ⟨hm, hp⟩ := PixelFormat.not_mono_packed_of_chromaPlanes
    (by rw [PixelFormat.chromaPlanes_of_planar h]; exact two_pos)
  simp [chromaStride, PixelFormat.not_semiplanar_of_planar h, hm, hp]

theorem Request.chromaStride_of_planarTiled (h : r.fmt.isPlanar = true) (ht : r.tiled = true) :
    r.chromaStride = ceilDiv (r.width / 2) r.tw * r.tsz := by
  rw [chromaStride_of_planar h, if_pos ht]

theorem Request.chromaStride_of_planarRaster (h : r.fmt.isPlanar = true) (ht : r.tiled = false) :
    r.chromaStride = ceilDiv r.lumaStride 2 := by
  rw [chromaStride_of_planar h, ht, if_neg Bool.false_ne_true]

theorem Request.chromaRows_eq :
    r.chromaRows = if r.fmt = .f420p ∨ r.fmt = .f420sp ∨ r.fmt = .f420spa then r.height / 2 else r.height := by
  simp only [chromaRows, PixelFormat.is420_iff]

/-- The tile sides of a laid-out request: the divisions by them are exact ceilings. -/
theorem Request.tileSides_of_layout {d : Derived} (h : layout r = .ok d) (ht : r.tiled = true) :
    0 < r.tw ∧ r.th = 4 := by
  have htile := Desc.tile_of_layout (d := { toRequest := r, toDerived := d, base := 0 }) h ht
  dsimp only at htile
  omega

theorem Request.chromaSize_of_noChroma (h : r.fmt = .f400p ∨ r.fmt = .fuyvy ∨ r.fmt = .fyuyv) : r.chromaSize = 0 := by
  rw [chromaSize_eq, chromaStride_of_noChroma h, Nat.zero_mul]

theorem Request.frameSize_of_noChroma (h : r.fmt = .f400p ∨ r.fmt = .fuyvy ∨ r.fmt = .fyuyv) :
    r.frameSize = max r.lumaSize r.reqIosize := by
  rw [frameSize, chromaSize_of_noChroma h, Nat.mul_zero, Nat.add_zero]

end

/-- Settles O31: each formula of the calculator for the group of formats it is of. -/
theorem layoutFormulas : Obligations.LayoutFormulas := by
  intro r d isCeil hceil h
  have tw_pos (ht : r.tiled = true) : 0 < r.tw := (Request.tileSides_of_layout h ht).1
  have th_pos (ht : r.tiled = true) : 0 < r.th := by rw [(Request.tileSides_of_layout h ht).2]; decide
  obtain ⟨-, -, rfl⟩ := layout_ok h
  have ceil (a : Nat) {b : Nat} (hb : 0 < b) : isCeil a b (ceilDiv a b) := (hceil _ _ _).mpr (ceilDiv_isLeast a hb)
  simp only [Request.derive]
  refine ⟨fun ht => ?lumaTiled, fun ht => ?lumaRaster, fun hf => ?noChroma, fun hf => ?semiplanar, fun hf => ?planar,
    fun _ _ _ => ?chromaRows⟩
  case lumaTiled =>
    refine ⟨_, _, ceil _ (tw_pos ht), ceil _ (th_pos ht), ?_, ?_⟩
    · rw [Request.lumaStride, Request.naturalStride_of_tiled ht]
    · rw [Request.lumaSize, Request.lumaRows_of_tiled ht]
  case lumaRaster =>
    refine ⟨_, ceil _ (by decide), ?_, ?_⟩
    · rw [Request.lumaStride, Request.naturalStride_of_raster ht]
    · rw [Request.lumaSize, Request.lumaRows_of_raster ht]
  case noChroma =>
    exact ⟨Request.chromaStride_of_noChroma hf, Request.chromaSize_of_noChroma hf, Request.frameSize_of_noChroma hf⟩
  case semiplanar =>
    have hsp := PixelFormat.isSemiplanar_iff.mpr hf
    refine ⟨Request.chromaStride_of_semiplanar hsp, ?_⟩
    rw [Request.frameSize, PixelFormat.chromaPlanes_of_semiplanar hsp, Nat.one_mul]
  case planar =>
    have hp := PixelFormat.isPlanar_iff.mpr hf
    refine ⟨fun ht => ⟨_, ceil _ (tw_pos ht), Request.chromaStride_of_planarTiled hp ht⟩, fun ht => ?_, ?_⟩
    · rw [Request.chromaStride_of_planarRaster hp ht]
      exact ceil _ two_pos
    · rw [Request.frameSize, PixelFormat.chromaPlanes_of_planar hp]
  case chromaRows =>
    refine ⟨_, rfl, fun ht => ⟨_, ceil _ (th_pos ht), ?_⟩, fun ht => ?_⟩
    · rw [Request.chromaSize_eq, Request.chromaStorageRows_of_tiled ht, Request.chromaRows_eq]
    · rw [Request.chromaSize_eq, Request.chromaStorageRows_of_raster ht, Request.chromaRows_eq]

/-! ### Where the samples of a laid-out frame lie -/

/-- The chroma stride is at most the luma stride (40_classifier_layout.md R113). -/
theorem Request.chromaStride_le_lumaStride (r : Request) : r.chromaStride ≤ r.lumaStride := by
  unfold Request.chromaStride
  split_ifs with hno hsp ht
  · exact Nat.zero_le _
  · exact le_rfl
  · calc ceilDiv (r.width / 2) r.tw * r.tsz
      _ ≤ ceilDiv r.width r.tw * r.tsz := Nat.mul_le_mul_right _ (ceilDiv_mono (Nat.div_le_self _ _) _)
      _ = r.naturalStride := (Request.naturalStride_of_tiled ht).symm
      _ ≤ r.lumaStride := Nat.le_max_left _ _
  · rw [ceilDiv_le_iff two_pos]
    omega

theorem tileAddr8_eq (d : Desc) (p : Plane) (x y : Nat) :
    tileAddr8 d p x y = rowAddr d p (y / 4) + (x / 8 * 32 + (8 * (y % 4) + x % 8)) := by
  simp only [tileAddr8, rowAddr, Nat.add_assoc]

theorem tileWordAddr10_eq (d : Desc) (p : Plane) (x y : Nat) :
    tileWordAddr10 d p x y = rowAddr d p (y / 4) + (x / 3 * 16 + 4 * (y % 4)) := by
  simp only [tileWordAddr10, rowAddr, Nat.add_assoc]

section
variable {d : Desc} (h : layout d.toRequest = .ok d.toDerived)
include h

/-- Bytes `k` to `k + n - 1` of a storage row lie in the frame region. -/
theorem rowSpan_inRegion {i y k n : Nat} (hi : i < (planes d).length) (hy : y < storageRows d (plane d i))
    (hk : k + n ≤ rowBytes d (plane d i)) :
    d.base ≤ rowAddr d (plane d i) y + k ∧ rowAddr d (plane d i) y + k + n ≤ d.base + d.ioSize := by
  have hrow := rowAddr_within h hi hy hk
  have hend := plane_end_le_ioSize h hi
  constructor
  · unfold rowAddr
    omega
  · omega

variable {i x y : Nat} (hs : d.hasSample i x y)
include hs

theorem rasterSample_inRegion (ht : d.tiled = false) {b : Nat} (hb : d.nbit = 8 * b) :
    d.base ≤ sampleAddr d (plane d i) b x y ∧ sampleAddr d (plane d i) b x y + b ≤ d.base + d.ioSize := by
  obtain ⟨hi, hx, hy⟩ := hs
  exact rowSpan_inRegion h hi (by rwa [storageRows_raster ht]) (sample_fits ht hb hx)

/-- The first and the last byte that hold bits of a sample of a compact 10-bit row (20_memory.md R69). -/
theorem compactSample_inRegion (ht : d.tiled = false) (hn : d.nbit = 10) :
    d.base ≤ rowAddr d (plane d i) y + 10 * x / 8 ∧
      rowAddr d (plane d i) y + (10 * x + 9) / 8 < d.base + d.ioSize := by
  obtain ⟨hi, hx, hy⟩ := hs
  have hlast : (10 * x + 9) / 8 + 1 ≤ rowBytes d (plane d i) := by
    rw [rowBytes_compact ht hn, Nat.succ_le_iff, lt_ceilDiv_iff (by decide)]
    omega
  obtain ⟨-, hend⟩ := rowSpan_inRegion h hi (by rwa [storageRows_raster ht]) hlast
  refine ⟨?_, hend⟩
  unfold rowAddr
  omega

theorem tileRow_lt (ht : d.tiled = true) : y / 4 < storageRows d (plane d i) := by
  obtain ⟨-, -, hy⟩ := hs
  rw [storageRows_tiled h ht, lt_ceilDiv_iff (by decide)]
  omega

theorem tileSample8_inRegion (ht : d.tiled = true) (hn : d.nbit = 8) :
    d.base ≤ tileAddr8 d (plane d i) x y ∧ tileAddr8 d (plane d i) x y < d.base + d.ioSize := by
  have hx := hs.2.1
  rw [tileAddr8_eq]
  refine rowSpan_inRegion (n := 1) h hs.1 (tileRow_lt h hs ht) ?_
  rw [rowBytes_tiled8 h ht hn]
  exact cell_fits ((lt_ceilDiv_iff (by decide)).mpr (by omega)) (by omega)

theorem tileWord10_inRegion (ht : d.tiled = true) (hn : d.nbit = 10) :
    d.base ≤ tileWordAddr10 d (plane d i) x y ∧ tileWordAddr10 d (plane d i) x y + 4 ≤ d.base + d.ioSize := by
  have hx := hs.2.1
  rw [tileWordAddr10_eq]
  refine rowSpan_inRegion h hs.1 (tileRow_lt h hs ht) ?_
  rw [rowBytes_tiled10 h ht hn]
  exact cell_fits (o := 4 * (y % 4) + 3) ((lt_ceilDiv_iff (by decide)).mpr (by omega)) (by omega)

end

/-- Settles O32: the strides and sizes are ordered, the planes end inside the frame, and each storage form keeps its
samples inside the storage rows. -/
theorem layoutBounds : Obligations.LayoutBounds := by
  rintro r v d h hcap rfl rfl
  have hc := (layout_ok h).1
  refine ⟨?_, ?_, ?_, Desc.ioSize_le_bufSize h, hcap, ?_,
    fun i hi => ⟨plane_end_le_ioSize h hi, rowBytes_le_stride h hi⟩, fun a => Desc.naturalByte.inRegion h,
    fun i x y hs => ⟨fun ht hn => ?_, fun ht hn => ?_, fun ht hn => ?_, fun ht hn => ?_⟩⟩
  · rw [Desc.uvStride_of_layout h, Desc.yStride_of_layout h]
    exact d.chromaStride_le_lumaStride
  · rw [Desc.yStride_of_layout h, Desc.ySize_of_layout h]
    exact Request.lumaStride_le_size hc
  · rw [Desc.ySize_of_layout h, Desc.ioSize_of_layout h]
    exact d.lumaSize_le_frame
  · rw [Desc.uvSize_of_layout h, Desc.ioSize_of_layout h]
    exact Request.chromaSize_le_frame hc
  · exact rasterSample_inRegion h hs ht (by omega)
  · exact compactSample_inRegion h hs ht hn
  · exact tileSample8_inRegion h hs ht hn
  · exact tileWord10_inRegion h hs ht hn

/-! ### The document's invariants -/

/-- A raster luma row fits the luma stride, packed or not (40_classifier_layout.md R114). -/
theorem Request.rasterRow_le_lumaStride {r : Request} (ht : r.tiled = false) :
    r.width * r.nbit ≤ 8 * r.lumaStride := by
  have hnat : ceilDiv (r.width * r.nbit) 8 ≤ r.naturalStride := by
    rw [naturalStride_of_raster ht]
    split <;> omega
  calc r.width * r.nbit
    _ ≤ r.lumaStride * 8 := (ceilDiv_le_iff (by decide)).mp (hnat.trans (Nat.le_max_left _ _))
    _ = 8 * r.lumaStride := Nat.mul_comm _ _

/-- The chroma stride of a raster planar frame is half the luma stride, rounded up (40_classifier_layout.md R108). -/
theorem Request.two_mul_chromaStride {r : Request} (hp : r.fmt.isPlanar = true) (ht : r.tiled = false) :
    2 * r.chromaStride = r.lumaStride + r.lumaStride % 2 := by
  rw [chromaStride_of_planarRaster hp ht, ceilDiv]
  omega

/-- Settles O33: the checks L2 to L4 and L8, the capacity, and the two rules for raster strides. -/
theorem layoutInvariants : Obligations.LayoutInvariants := by
  intro r d h
  obtain ⟨hc, hbuf, rfl⟩ := layout_ok h
  obtain ⟨-, hn, hnlsb, h16, -, -, -, -, heven, -⟩ := layoutCheck_none hc
  refine ⟨hnlsb, hn, Request.rasterRow_le_lumaStride, fun ht hf => ?_, fun _ hf => ?_, fun hf => ?_, hbuf, fun ht => ?_⟩
  · have := Request.two_mul_chromaStride (PixelFormat.isPlanar_iff.mpr hf) ht
    simp only [Request.derive]
    omega
  · exact Request.chromaStride_of_semiplanar (PixelFormat.isSemiplanar_iff.mpr hf)
  · exact heven (PixelFormat.is420_iff.mpr (.inr hf))
  · have : r.nbit ≠ 16 := fun hn16 => h16 ⟨ht, hn16⟩
    omega

/-! ### The chroma ratios -/

/-- The luma plane of a 4:2:0 frame has twice as many storage rows as a chroma plane, of a tiled frame when the chroma
plane fills whole tile rows. -/
theorem Request.lumaRows_of_420 {r : Request} {d : Derived} (h : layout r = .ok d) (hf : r.fmt.is420 = true)
    (hrows : r.tiled = true → r.chromaRows % r.th = 0) : r.lumaRows = 2 * r.chromaStorageRows := by
  obtain ⟨-, -, -, -, -, -, -, -, heven, -⟩ := layoutCheck_none (layout_ok h).1
  have hheight := heven hf
  have hchroma : r.chromaRows = r.height / 2 := by rw [chromaRows, if_pos hf]
  cases ht : r.tiled with
  | false =>
    rw [lumaRows_of_raster ht, chromaStorageRows_of_raster ht]
    omega
  | true =>
    have hrows := hrows ht
    obtain ⟨-, hth⟩ := tileSides_of_layout h ht
    rw [hth] at hrows
    rw [lumaRows_of_tiled ht, chromaStorageRows_of_tiled ht, hth, ceilDiv, ceilDiv]
    omega

/-- Without vertical subsampling the planes have equally many storage rows. -/
theorem Request.lumaRows_of_not_420 {r : Request} (hf : r.fmt.is420 = false) : r.lumaRows = r.chromaStorageRows := by
  simp [lumaRows, chromaStorageRows, chromaRows, hf]

/-- The sizes of the chroma planes as exact fractions of the luma plane's (40_classifier_layout.md R118). -/
structure Request.ExactChroma (r : Request) : Prop where
  f400p : r.fmt = .f400p → r.chromaSize = 0
  f420p : r.fmt = .f420p → 4 * r.chromaSize = r.lumaSize
  f420sp : r.fmt = .f420sp ∨ r.fmt = .f420spa → 2 * r.chromaSize = r.lumaSize
  f422p : r.fmt = .f422p → 2 * r.chromaSize = r.lumaSize
  f422sp : r.fmt = .f422sp ∨ r.fmt = .f422spa → r.chromaSize = r.lumaSize
  packed : r.fmt = .fuyvy ∨ r.fmt = .fyuyv → r.chromaSize = 0

section
variable {r : Request}

/-- A planar 4:2:0 frame whose chroma stride is half the luma stride but for `e` bytes. -/
theorem Request.chromaSize_f420p {e : Nat} (hstride : 2 * r.chromaStride = r.lumaStride + e)
    (hrows : r.lumaRows = 2 * r.chromaStorageRows) : 4 * r.chromaSize = r.lumaSize + e * r.lumaRows := by
  rw [chromaSize_eq, lumaSize, ← Nat.add_mul, ← hstride, hrows]
  ring

/-- A planar 4:2:2 frame whose chroma stride is half the luma stride but for `e` bytes. -/
theorem Request.chromaSize_f422p {e : Nat} (hstride : 2 * r.chromaStride = r.lumaStride + e)
    (hrows : r.lumaRows = r.chromaStorageRows) : 2 * r.chromaSize = r.lumaSize + e * r.lumaRows := by
  rw [chromaSize_eq, lumaSize, ← Nat.add_mul, ← hstride, hrows, Nat.mul_assoc]

/-- The sizes are exact fractions when a planar frame's chroma stride is half its luma stride and the storage rows agree
with the subsampling. -/
theorem Request.exactChroma_of_strides {d : Derived} (h : layout r = .ok d)
    (hstride : r.fmt.isPlanar = true → 2 * r.chromaStride = r.lumaStride)
    (hrows : r.tiled = true → r.chromaRows % r.th = 0) : r.ExactChroma where
  f400p hf := chromaSize_of_noChroma (.inl hf)
  f420p hf := by
    simpa using chromaSize_f420p (e := 0) (hstride (by rw [hf]; rfl)) (lumaRows_of_420 h (by rw [hf]; rfl) hrows)
  f420sp hf := by
    have hsp := chromaStride_of_semiplanar (PixelFormat.isSemiplanar_iff.mpr (hf.elim .inl (.inr ∘ .inl)))
    have h420 := lumaRows_of_420 h (PixelFormat.is420_iff.mpr (.inr hf)) hrows
    rw [chromaSize_eq, lumaSize, hsp, h420, Nat.mul_left_comm]
  f422p hf := by
    simpa using chromaSize_f422p (e := 0) (hstride (by rw [hf]; rfl)) (lumaRows_of_not_420 (by rw [hf]; rfl))
  f422sp hf := by
    have hsp := chromaStride_of_semiplanar (PixelFormat.isSemiplanar_iff.mpr (.inr (.inr hf)))
    have h422 : r.fmt.is420 = false := by rcases hf with hf | hf <;> rw [hf] <;> rfl
    rw [chromaSize_eq, lumaSize, hsp, lumaRows_of_not_420 h422]
  packed hf := chromaSize_of_noChroma (.inr hf)

/-- The tiled strides of a planar frame whose width fills pairs of cells, when no stride is requested. -/
theorem Request.chromaStride_of_wholeCells {d : Derived} (h : layout r = .ok d) (hreq : r.reqStride = 0)
    (ht : r.tiled = true) (hw : r.width % (2 * r.tw) = 0) (hp : r.fmt.isPlanar = true) :
    2 * r.chromaStride = r.lumaStride := by
  obtain ⟨htw, -⟩ := tileSides_of_layout h ht
  obtain ⟨n, hn⟩ := Nat.dvd_of_mod_eq_zero hw
  have hluma : ceilDiv r.width r.tw = 2 * n := by
    rw [hn, show 2 * r.tw * n = 2 * n * r.tw by ring, ceilDiv_mul _ htw]
  have hchroma : ceilDiv (r.width / 2) r.tw = n := by
    rw [hn, Nat.mul_assoc, Nat.mul_div_cancel_left _ two_pos, Nat.mul_comm, ceilDiv_mul _ htw]
  rw [lumaStride, hreq, Nat.max_zero, naturalStride_of_tiled ht, chromaStride_of_planarTiled hp ht, hluma, hchroma,
    Nat.mul_assoc]

/-- An odd raster luma stride that nothing requested is that of a compact 10-bit frame, monochrome ones apart: other
depths give whole samples, and their number is even (40_classifier_layout.md R110 check L7). -/
theorem Request.nbit_of_oddStride {d : Derived} (h : layout r = .ok d) (hreq : r.reqStride = 0)
    (ht : r.tiled = false) (hodd : r.lumaStride % 2 = 1) (hf : r.fmt ≠ .f400p) : r.nbit = 10 := by
  obtain ⟨-, hn, -, -, -, -, -, heven, -⟩ := layoutCheck_none (layout_ok h).1
  have hw := heven (PixelFormat.isMono_eq_false_iff.mpr hf)
  rw [lumaStride, hreq, Nat.max_zero, naturalStride_of_raster ht] at hodd
  unfold ceilDiv at hodd
  rcases hn with hn | hn | hn
  · rw [hn] at hodd
    split at hodd <;> omega
  · exact hn
  · rw [hn] at hodd
    split at hodd <;> omega

end

/-- Settles O34: the strides of a raster frame halve exactly when the luma stride is even, those of a tiled one when the
width fills pairs of cells. -/
theorem layoutChromaRatios : Obligations.LayoutChromaRatios := by
  intro r d exact h hreq _ hexact
  obtain ⟨-, -, rfl⟩ := layout_ok h
  have hofExact (he : r.ExactChroma) : exact :=
    hexact.mpr ⟨he.f400p, he.f420p, he.f420sp, he.f422p, he.f422sp, he.packed⟩
  simp only [Request.derive]
  refine ⟨r.chromaStride_le_lumaStride, fun ht heven => ?_, fun ht hodd => ?_, fun ht hw hrows => ?_⟩
  · refine hofExact (Request.exactChroma_of_strides h (fun hp => ?_) (by simp [ht]))
    rw [Request.two_mul_chromaStride hp ht, heven, Nat.add_zero]
  · have hstride (hp : r.fmt.isPlanar = true) : 2 * r.chromaStride = r.lumaStride + 1 := by
      rw [Request.two_mul_chromaStride hp ht, hodd]
    rw [← Request.lumaRows_of_raster ht]
    refine ⟨Request.nbit_of_oddStride h hreq ht hodd, fun hf => ?_, fun hf => ?_⟩
    · simpa using Request.chromaSize_f420p (hstride (by rw [hf]; rfl))
        (Request.lumaRows_of_420 h (by rw [hf]; rfl) (by simp [ht]))
    · simpa using Request.chromaSize_f422p (hstride (by rw [hf]; rfl)) (Request.lumaRows_of_not_420 (by rw [hf]; rfl))
  · exact hofExact (Request.exactChroma_of_strides h (Request.chromaStride_of_wholeCells h hreq ht hw) fun _ => hrows)

end Sys2Proof.Machine
end

section
/-! PROOFS. The checks of a primitive command in their order, each with the error entry it ends in (41_codec.md R120,
R121, 60_exceptions.md R199). -/

namespace Sys2Proof.Machine

/-! ### The check sequence -/

section
variable {p : Primitive} {s d : Desc}

theorem checkPrimitive_of_inadmissible (h : ¬p.admissible s d = true) : checkPrimitive p s d = some .unsup := by
  simp [checkPrimitive, h]

variable (hadm : p.admissible s d = true)
include hadm

theorem checkPrimitive_of_shape
    (h : s.width ≠ d.width ∨ s.height ≠ d.height ∨ (p.equalDepth = true ∧ s.nbit ≠ d.nbit)) :
    checkPrimitive p s d = some .shape := by
  simp only [checkPrimitive, hadm, Bool.not_true, Bool.false_eq_true, if_false, if_pos h]

variable (hshape : ¬(s.width ≠ d.width ∨ s.height ≠ d.height ∨ (p.equalDepth = true ∧ s.nbit ≠ d.nbit)))
include hshape

theorem checkPrimitive_of_range (h : ¬(s.region.inMemory = true ∧ d.region.inMemory = true)) :
    checkPrimitive p s d = some .alloc := by
  have hrange : (!s.region.inMemory || !d.region.inMemory) = true := by
    rwa [← Bool.not_and, Bool.not_eq_true', ← Bool.not_eq_true, Bool.and_eq_true]
  simp only [checkPrimitive, hadm, Bool.not_true, Bool.false_eq_true, if_false, if_neg hshape, if_pos hrange]

theorem checkPrimitive_of_overlap (hs : s.region.inMemory = true) (hd : d.region.inMemory = true)
    (h : s.region.overlaps d.region = true) : checkPrimitive p s d = some .overlap := by
  simp only [checkPrimitive, hadm, hs, hd, h, Bool.not_true, Bool.or_self, Bool.false_eq_true, if_false, if_neg hshape,
    if_true]

end

/-! ### Error entry of a primitive command -/

theorem Region.inMemory_iff {r : Region} : r.inMemory = true ↔ r.base + r.size ≤ Config.memSize := by
  rw [Region.inMemory, Nat.ble_eq]

/-- A command on banks that are not both laid out does no check. -/
theorem exec_prim_of_invalid {p : Prim} {s : State} (h : ¬(s.bankS.valid = true ∧ s.bankD.valid = true)) :
    exec p.instr s = .next (s.failedWith 7#4 0#4) := by
  rw [exec_prim]
  rcases runPrimitive_cases p.primitive s with ⟨-, e⟩ | ⟨c, hS, hD, -⟩ | ⟨hS, hD, -⟩ | ⟨hS, hD, -⟩
  · exact e
  all_goals exact absurd ⟨hS, hD⟩ h

/-- The first check that fails is the error, at stage 0. -/
theorem exec_prim_of_check {p : Prim} {s : State} (hS : s.bankS.valid = true) (hD : s.bankD.valid = true) {c : ErrCode}
    (h : checkPrimitive p.primitive s.bankS.desc s.bankD.desc = some c) :
    exec p.instr s = .next (s.failedWith c.code 0#4) := by
  rw [exec_prim]
  rcases runPrimitive_cases p.primitive s with ⟨hv, -⟩ | ⟨c', -, -, hc, e⟩ | ⟨-, -, hc, -⟩ | ⟨-, -, hc, -⟩
  · exact absurd ⟨hS, hD⟩ hv
  · obtain rfl : c' = c := Option.some.inj (hc.symm.trans h)
    exact e
  all_goals
    rw [h] at hc
    cases hc

/-- The primitives that need equal depth are the remapper's, but for the two between tiled and raster 8-bit frames
(42_remapper.md R140). -/
theorem Prim.equalDepth_iff (p : Prim) :
    p.primitive.equalDepth = true ↔ p ∈ [Prim.sp2p, .p2sp, .pk2p, .p2pk, .resample, .rectcopy] := by
  cases p <;> decide

/-- Settles O35: the order is that of the check sequence, and a failed check ends in error entry. -/
theorem primitiveCheckOrder : Obligations.PrimitiveCheckOrder := by
  rintro p s S D needsDepth rfl rfl hneeds
  have hdepth : needsDepth ↔ p.primitive.equalDepth = true := hneeds.trans p.equalDepth_iff.symm
  refine ⟨exec_prim_of_invalid, fun hS hD => ⟨fun hadm => ?_, fun hadm => ?_⟩⟩
  · exact exec_prim_of_check hS hD (checkPrimitive_of_inadmissible (mt Prim.admissible_iff.mp hadm))
  rw [← Prim.admissible_iff] at hadm
  rw [hdepth]
  refine ⟨fun hshape => ?_, fun hshape => ⟨fun hrange => ?_, fun hrange hover => ?_⟩⟩
  · exact exec_prim_of_check hS hD (checkPrimitive_of_shape hadm hshape)
  · refine exec_prim_of_check hS hD (checkPrimitive_of_range hadm hshape ?_)
    simp only [Region.inMemory_iff, Desc.region, Config.memSize]
    omega
  · obtain ⟨hrS, hrD⟩ := not_or.mp hrange
    refine exec_prim_of_check hS hD (checkPrimitive_of_overlap hadm hshape ?_ ?_ (Region.overlaps_iff.mpr hover))
    · exact Region.inMemory_iff.mpr (Nat.le_of_not_lt hrS)
    · exact Region.inMemory_iff.mpr (Nat.le_of_not_lt hrD)

end Sys2Proof.Machine
end

section
/-! PROOFS. `unpack_row` and `pack_row`: the accumulator of `pack_row`, the bit string it writes, and the two round
trips (20_memory.md R69, 41_codec.md R123, R127, R130). -/

namespace Sys2Proof.Machine

/-- Settles O36: the accumulator procedure gives the closed form of every sample. -/
theorem unpackRowClosedForm : Obligations.UnpackRowClosedForm := fun m ra n _ hx =>
  ⟨unpackRow_length m ra n, unpackRow_getD m ra hx, compactSample_lt m ra _⟩

/-! ### `store_word` -/

/-- A loop whose passes from `c` on do nothing ends there. -/
theorem iterate_guarded {α : Type} (n c : Nat) (f : Nat → α → α) (a : α) :
    iterate n (fun k b => if k < c then f k b else b) a = iterate (min n c) f a := by
  induction n with
  | zero => simp
  | succ n ih =>
    rw [iterate_succ, ih]
    by_cases hn : n < c
    · rw [if_pos hn, min_eq_left hn.le, min_eq_left (Nat.succ_le_of_lt hn), iterate_succ]
    · rw [if_neg hn, min_eq_right (by omega), min_eq_right (by omega)]

/-- `store_word` is a little-endian write of the word's bytes that lie in the row (41_codec.md R127). -/
theorem storeWord_eq (mem : Memory) (ra m l word : Nat) :
    storeWord mem ra m l word = Memory.writeLE mem (ra + 4 * m) (min 4 (l - 4 * m)) word := by
  rw [storeWord, Memory.writeLE, ← iterate_guarded]
  refine iterate_congr (fun b _ mem1 => ?_) mem
  have hguard : 4 * m + b < l ↔ b < l - 4 * m := by omega
  have hbyte : BitVec.ofNat 8 (bitField word (8 * b + 7) (8 * b)) = BitVec.ofNat 8 (word >>> (8 * b)) := by
    refine BitVec.eq_of_toNat_eq ?_
    rw [BitVec.toNat_ofNat, BitVec.toNat_ofNat, bitField, show 8 * b + 7 + 1 - 8 * b = 8 by omega, Nat.mod_mod]
  simp only [hguard, hbyte]

theorem wf_storeWord {mem : Memory} (hm : Memory.wf mem = true) (ra m l word : Nat) :
    Memory.wf (storeWord mem ra m l word) = true := by
  rw [storeWord_eq]
  exact Memory.wf_writeLE hm _ _ _

/-- Bit `t` of byte `o` of the row, one of the bytes of word `m`. -/
theorem testBit_storeWord {mem : Memory} (hm : Memory.wf mem = true) {ra m l o t : Nat} (word : Nat)
    (hfit : ra + l ≤ Config.memSize) (hlo : 4 * m ≤ o) (hhi : o < 4 * m + 4) (ho : o < l) (ht : t < 8) :
    (Memory.read (storeWord mem ra m l word) (ra + o)).toNat.testBit t = word.testBit (8 * o + t - 32 * m) := by
  rw [storeWord_eq, show ra + o = ra + 4 * m + (o - 4 * m) by omega,
    Memory.read_writeLE_inside hm word (by omega) (by omega), BitVec.toNat_ofNat, Nat.testBit_mod_two_pow,
    Nat.testBit_shiftRight, show 8 * (o - 4 * m) + t = 8 * o + t - 32 * m by omega]
  simp [ht]

theorem storeWord_keeps_before (mem : Memory) {ra m l word a : Nat} (h : a < ra + 4 * m) :
    Memory.read (storeWord mem ra m l word) a = Memory.read mem a := by
  rw [storeWord_eq]
  exact Memory.read_writeLE_outside mem (.inl h)

/-- Packing from word `m` on leaves the words before it alone. -/
theorem packFrom_keeps_before (mem : Memory) {ra l a : Nat} (v : List Nat) (acc nv : Nat) {m : Nat}
    (h : a < ra + 4 * m) : Memory.read (packFrom mem ra l v acc nv m) a = Memory.read mem a := by
  induction v generalizing mem acc nv m with
  | nil =>
    unfold packFrom
    split
    · exact storeWord_keeps_before mem h
    · rfl
  | cons x rest ih =>
    unfold packFrom
    split
    · rw [ih _ _ _ (by omega), storeWord_keeps_before mem h]
    · exact ih _ _ _ h

/-! ### The accumulator of `pack_row` -/

/-- Bit `j` of the low ten bits of the values one after another, 0 past the last value (41_codec.md R127). -/
def packedBit (v : List Nat) (j : Nat) : Bool := (v.getD (j / 10) 0).testBit (j % 10)

theorem packedBit_past {v : List Nat} {j : Nat} (h : 10 * v.length ≤ j) : packedBit v j = false := by
  rw [packedBit, List.getD_eq_default _ _ (by omega), Nat.zero_testBit]

/-- The state of `pack_row` once `x` values are taken: the accumulator holds the `nv` bits that lie between the words
already stored and the values still to come (41_codec.md R127, 10_state.md R46). -/
structure PackHolds (v : List Nat) (x acc nv m : Nat) : Prop where
  count : 32 * m + nv = 10 * x
  bits : ∀ k, acc.testBit k = (decide (k < nv) && packedBit v (32 * m + k))

namespace PackHolds
variable {v : List Nat} {x acc nv m : Nat}

theorem start (v : List Nat) : PackHolds v 0 0 0 0 := ⟨rfl, fun k => by simp⟩

theorem take (h : PackHolds v x acc nv m) :
    PackHolds v (x + 1) (acc ||| (bitField (v.getD x 0) 9 0 <<< nv)) (nv + 10) m := by
  obtain ⟨hcount, hbits⟩ := h
  refine ⟨by omega, fun k => ?_⟩
  rw [Nat.testBit_or, Nat.testBit_shiftLeft, hbits, bitField_ten, Nat.testBit_mod_two_pow]
  by_cases hk : k < nv
  · have : k < nv + 10 := by omega
    simp [hk, this, Nat.not_le_of_lt hk]
  · by_cases hk10 : k < nv + 10
    · have hdiv : (32 * m + k) / 10 = x := by omega
      have hmod : (32 * m + k) % 10 = k - nv := by omega
      have hlt : k - nv < 10 := by omega
      simp [packedBit, hk, hk10, hdiv, hmod, hlt, Nat.le_of_not_lt hk]
    · have hge : ¬k - nv < 10 := by omega
      simp [hk, hk10, hge]

theorem store (h : PackHolds v x acc nv m) (hnv : 32 ≤ nv) : PackHolds v x (acc >>> 32) (nv - 32) (m + 1) := by
  obtain ⟨hcount, hbits⟩ := h
  refine ⟨by omega, fun k => ?_⟩
  have hlt : 32 + k < nv ↔ k < nv - 32 := by omega
  rw [Nat.testBit_shiftRight, hbits, ← Nat.add_assoc, Nat.mul_succ]
  simp only [hlt]

/-- The next word of the row is the low 32 bits, if that many are at hand or no value is left. -/
theorem word (h : PackHolds v x acc nv m) (hend : 32 ≤ nv ∨ v.length ≤ x) {k : Nat} (hk : k < 32) :
    (bitField acc 31 0).testBit k = packedBit v (32 * m + k) := by
  have hlow : bitField acc 31 0 = acc % 2 ^ 32 := rfl
  obtain ⟨hcount, hbits⟩ := h
  rw [hlow, Nat.testBit_mod_two_pow, hbits]
  by_cases hkn : k < nv
  · simp [hk, hkn]
  · simp [hkn, packedBit_past (v := v) (j := 32 * m + k) (by omega)]

/-- Storing that word gives its bytes of the row. -/
theorem testBit_store (h : PackHolds v x acc nv m) (hend : 32 ≤ nv ∨ v.length ≤ x) {mem : Memory}
    (hm : Memory.wf mem = true) {ra l o t : Nat} (hfit : ra + l ≤ Config.memSize) (hlo : 4 * m ≤ o)
    (hhi : o < 4 * m + 4) (ho : o < l) (ht : t < 8) :
    (Memory.read (storeWord mem ra m l (bitField acc 31 0)) (ra + o)).toNat.testBit t = packedBit v (8 * o + t) := by
  rw [testBit_storeWord hm _ hfit hlo hhi ho ht, h.word hend (by omega),
    show 32 * m + (8 * o + t - 32 * m) = 8 * o + t by omega]

end PackHolds

/-! ### The row `pack_row` writes -/

/-- Every bit of the row from word `m` on. -/
theorem testBit_packFrom {v : List Nat} {ra l : Nat} (hl : 8 * l < 10 * v.length + 8) (hfit : ra + l ≤ Config.memSize)
    {rest : List Nat} {x acc nv m : Nat} (h : PackHolds v x acc nv m) (hnv : nv < 32) (hrest : v.drop x = rest)
    {mem : Memory} (hm : Memory.wf mem = true) {o t : Nat} (hlo : 4 * m ≤ o) (ho : o < l) (ht : t < 8) :
    (Memory.read (packFrom mem ra l rest acc nv m) (ra + o)).toNat.testBit t = packedBit v (8 * o + t) := by
  induction rest generalizing x acc nv m mem with
  | nil =>
    have hend : v.length ≤ x := List.drop_eq_nil_iff.mp hrest
    have hcount := h.count
    rw [packFrom, if_pos (by omega)]
    exact h.testBit_store (.inr hend) hm hfit hlo (by omega) ho ht
  | cons y rest ih =>
    have hy : v.getD x 0 = y := by
      rw [List.getD_eq_getElem?_getD, ← List.head?_drop, hrest, List.head?_cons, Option.getD_some]
    have hrest' : v.drop (x + 1) = rest := by rw [← List.drop_drop, hrest, List.drop_one, List.tail_cons]
    have htake := h.take
    rw [hy] at htake
    rw [packFrom]
    split
    · rename_i hfull
      by_cases hword : o < 4 * (m + 1)
      · rw [packFrom_keeps_before _ _ _ _ (by omega)]
        exact htake.testBit_store (.inl hfull) hm hfit hlo (by omega) ho ht
      · exact ih (htake.store hfull) (by omega) hrest' (wf_storeWord hm ..) (by omega)
    · exact ih htake (by omega) hrest' hm hlo

/-- The row that `pack_row` writes holds the values' bits one after another, then zeros (41_codec.md R127). -/
theorem testBit_packRow {m : Memory} (hm : Memory.wf m = true) {ra : Nat} {v : List Nat}
    (hfit : ra + ceilDiv (10 * v.length) 8 ≤ Config.memSize) {o t : Nat} (ho : o < ceilDiv (10 * v.length) 8)
    (ht : t < 8) :
    (Memory.read (packRow m ra v) (ra + o)).toNat.testBit t = packedBit v (8 * o + t) := by
  refine testBit_packFrom ?_ hfit (PackHolds.start v) (by decide) rfl hm (Nat.zero_le _) ho ht
  unfold ceilDiv
  omega

/-! ### The round trips -/

theorem rowBit_eq_testBit (m : Memory) (ra j : Nat) :
    rowBit m ra j = ((Memory.read m (ra + j / 8)).toNat.testBit (j % 8)).toNat := by
  rw [rowBit, Nat.toNat_testBit, Nat.shiftRight_eq_div_pow]

/-- Sample `x` of a packed row is the low ten bits of value `x` (41_codec.md R130). -/
theorem compactSample_packRow {m : Memory} (hm : Memory.wf m = true) {ra : Nat} {v : List Nat}
    (hfit : ra + ceilDiv (10 * v.length) 8 ≤ Config.memSize) {x : Nat} (hx : x < v.length) :
    compactSample (packRow m ra v) ra x = v.getD x 0 % 1024 := by
  have hl : 10 * (x + 1) ≤ 8 * ceilDiv (10 * v.length) 8 := by
    unfold ceilDiv
    omega
  refine Nat.eq_of_testBit_eq fun k => ?_
  rw [testBit_compactSample hl, show 1024 = 2 ^ 10 by rfl, Nat.testBit_mod_two_pow]
  by_cases hk : k < 10
  · have hj : 10 * x + k < 8 * ceilDiv (10 * v.length) 8 := by omega
    have hdiv : (10 * x + k) / 10 = x := by omega
    have hmod : (10 * x + k) % 10 = k := by omega
    rw [streamBit, testBit_packRow hm hfit (by omega) (Nat.mod_lt _ (by decide)), Nat.div_add_mod, packedBit, hdiv,
      hmod]
    simp [hj]
  · simp [hk]

/-- The samples of a row whose pad bits are 0 make up the row's bit string. -/
theorem packedBit_unpackRow {m : Memory} {ra n : Nat}
    (hpad : ∀ j, 10 * n ≤ j → j < 8 * ceilDiv (10 * n) 8 → rowBit m ra j = 0) {j : Nat}
    (hj : j < 8 * ceilDiv (10 * n) 8) :
    packedBit (unpackRow m ra n) j = (Memory.read m (ra + j / 8)).toNat.testBit (j % 8) := by
  by_cases hn : j < 10 * n
  · have hl : 10 * (j / 10 + 1) ≤ 8 * ceilDiv (10 * n) 8 := by
      unfold ceilDiv
      omega
    rw [packedBit, unpackRow_getD m ra (by omega), testBit_compactSample hl, streamBit, Nat.div_add_mod]
    simp [hj, Nat.mod_lt]
  · have hbit := hpad j (by omega) hj
    rw [rowBit_eq_testBit, Bool.toNat_eq_zero] at hbit
    rw [packedBit_past (by simpa using hn), hbit]

/-- Settles O37: both round trips compare bit strings, a row's with the values'. -/
theorem packRowRoundTrip : Obligations.PackRowRoundTrip := by
  refine ⟨fun m ra v hm hv hfit => ⟨?_, fun a ha => packRow_keeps m ha, fun j hj hend => ?_⟩,
    fun m ra n hm hfit hpad a => ?_⟩
  · refine List.ext_getElem (unpackRow_length ..) fun x hx hx' => ?_
    have hlt := hv _ (List.getElem_mem hx')
    rw [← List.getD_eq_getElem _ 0 hx, unpackRow_getD _ _ hx', compactSample_packRow hm hfit hx',
      List.getD_eq_getElem _ _ hx', Nat.mod_eq_of_lt hlt]
  · rw [rowBit_eq_testBit, testBit_packRow hm hfit (by omega) (Nat.mod_lt _ (by decide)), Nat.div_add_mod,
      packedBit_past hj]
    rfl
  · by_cases ha : a < ra ∨ ra + ceilDiv (10 * n) 8 ≤ a
    · exact packRow_keeps m (by rwa [unpackRow_length])
    · obtain ⟨o, rfl⟩ : ∃ o, a = ra + o := ⟨a - ra, by omega⟩
      have ho : o < ceilDiv (10 * n) 8 := by omega
      refine BitVec.eq_of_toNat_eq (Nat.eq_of_testBit_eq fun t => ?_)
      by_cases ht : t < 8
      · have hdiv : (8 * o + t) / 8 = o := by omega
        have hmod : (8 * o + t) % 8 = t := by omega
        rw [testBit_packRow hm (by rwa [unpackRow_length]) (by rwa [unpackRow_length]) ht,
          packedBit_unpackRow hpad (by omega), hdiv, hmod]
      · have hhigh (b : Byte) : b.toNat.testBit t = false :=
          Nat.testBit_lt_two_pow (b.isLt.trans_le (Nat.pow_le_pow_right two_pos (Nat.le_of_not_lt ht)))
        rw [hhigh, hhigh]

end Sys2Proof.Machine
end

section
/-! PROOFS. `NARROW`, `WIDEN` and `RESCALE16`: the loop they share maps every sample of a raster frame, and the
arithmetic of each (41_codec.md R131 to R133). -/

namespace Sys2Proof.Machine

/-! ### The loop over the samples of a frame -/

/-- The bytes of a sample of a raster frame are natural bytes of it, so they read as before in a memory that differs
elsewhere. -/
theorem readSample_congr {s : Desc} (ht : s.tiled = false) {b : Nat} (hb : s.nbit = 8 * b) {i x y : Nat}
    (hs : s.hasSample i x y) {m m' : Memory} (hm : ∀ a, s.naturalByte a → Memory.read m' a = Memory.read m a) :
    Memory.readLE m' (sampleAddr s (plane s i) b x y) b = Memory.readLE m (sampleAddr s (plane s i) b x y) b := by
  obtain ⟨hi, hx, hy⟩ := hs
  have hfit := sample_fits ht hb hx
  refine Memory.readLE_congr fun o ho => hm _ ⟨i, y, x * b + o, hi, by rwa [storageRows_raster ht], by omega, ?_⟩
  rw [sampleAddr, Nat.add_assoc]

/-- The body of `NARROW`, `WIDEN` and `RESCALE16` puts the image of every source sample at its place in the
destination. -/
theorem readSample_mapSamples {s d : Desc} (hpair : FramePair s d) (hf : s.fmt = d.fmt) {rb wb : Nat}
    (hts : s.tiled = false) (hrb : s.nbit = 8 * rb) (htd : d.tiled = false) (hwb : d.nbit = 8 * wb)
    (hapart : ∀ a, s.naturalByte a → ¬d.naturalByte a) (hmem : d.base + d.ioSize ≤ Config.memSize) (f : Nat → Nat)
    {m : Memory} (hm : Memory.wf m = true) {i x y : Nat} (hs : s.hasSample i x y) :
    Memory.readLE (mapSamples rb wb f s d m) (sampleAddr d (plane d i) wb x y) wb =
      f (Memory.readLE m (sampleAddr s (plane s i) rb x y) rb) % 2 ^ (8 * wb) := by
  have hsd := (hpair.hasSample_iff hf i x y).mp hs
  refine readSample_of_forRows htd hwb hpair hf (fun j z m1 hj => ?_)
    (fun ps pd z m1 hm1 => iterate_wf (fun _ _ _ hm2 => Memory.wf_writeLE hm2 _ _ _) hm1) hm hsd fun m1 hm1 hk => ?_
  · exact iterate_keepsRow (fun u hu m2 => writeSample_keepsRow htd hwb (hpair.ws_eq hf hj ▸ hu) z m2 _) m1
  · refine readSample_of_loop (Q := keepsOutside d m) hm1 hs.2.1 (sample_inMemory htd hwb hpair.dst hmem hsd) hk
      (fun u hu m2 hk2 => ?_) fun m2 hk2 => ?_
    · have hu := (hpair.hasSample_iff hf i u y).mp ⟨hs.1, hu, hs.2.2⟩
      exact hk2.trans (writeSample_keepsOutside htd hwb hu m2 _)
    · rw [readSample_congr hts hrb hs fun a ha => hk2 a (hapart a ha)]

/-- What a primitive whose body is that loop does on frames ready for it, if the image of a sample fits a sample. -/
theorem State.FramesReady.mapSamples_result {s : State} (h : s.FramesReady) {p : Prim}
    (hadm : p.Admits s.bankS.desc s.bankD.desc) {rb wb : Nat} {f : Nat → Nat}
    (hbody : p.primitive.body s.bankS.desc s.bankD.desc = mapSamples rb wb f s.bankS.desc s.bankD.desc)
    (hdepth : p.primitive.equalDepth = false) (hf : s.bankS.desc.fmt = s.bankD.desc.fmt)
    (hts : s.bankS.desc.tiled = false) (hrb : s.bankS.desc.nbit = 8 * rb) (htd : s.bankD.desc.tiled = false)
    (hwb : s.bankD.desc.nbit = 8 * wb) (hcut : ∀ v, v < 2 ^ (8 * rb) → f v < 2 ^ (8 * wb)) :
    ∃ m : Memory, exec p.instr s = .next (s.doneWith m) ∧ keepsOutside s.bankD.desc s.mem m ∧
      ∀ i x y, s.bankS.desc.hasSample i x y →
        Memory.readLE m (sampleAddr s.bankD.desc (plane s.bankD.desc i) wb x y) wb =
          f (Memory.readLE s.mem (sampleAddr s.bankS.desc (plane s.bankS.desc i) rb x y) rb) := by
  have hpair := h.pair
  have hapart : ∀ a, s.bankS.desc.naturalByte a → ¬s.bankD.desc.naturalByte a := fun a => h.apart
  have hcompletes := h.completes hadm (by simp [hdepth])
  obtain ⟨hwf, -, -, -, -, -, -, hmem, -⟩ := h
  rw [hbody] at hcompletes
  refine ⟨_, hcompletes, mapSamples_keepsOutside hpair hf htd hwb rb f s.mem, fun i x y hs => ?_⟩
  rw [readSample_mapSamples hpair hf hts hrb htd hwb hapart hmem f hwf hs,
    Nat.mod_eq_of_lt (hcut _ (Memory.readLE_lt ..))]

/-! ### The samples -/

theorem Memory.readLE_one (m : Memory) (a : Nat) : Memory.readLE m a 1 = (Memory.read m a).toNat := by
  simp [Memory.readLE]

/-- The active bits of a laid-out frame are at most its depth (40_classifier_layout.md R110 check L3). -/
theorem Desc.eab_le_of_nbit16 {d : Desc} (h : layout d.toRequest = .ok d.toDerived) (hn : d.nbit = 16) :
    d.eab ≤ 16 := by
  obtain ⟨-, -, hl, -⟩ := layoutCheck_none (layout_ok h).1
  unfold Desc.eab
  split <;> omega

theorem narrowSample_eq (sh v : Nat) : narrowSample sh v = v / 2 ^ sh % 256 := by
  simp [narrowSample, bitField, Nat.shiftRight_eq_div_pow]

theorem narrowSample_lt (sh v : Nat) : narrowSample sh v < 2 ^ (8 * 1) := Nat.mod_lt _ (Nat.two_pow_pos _)

theorem widenSample_eq (sh v : Nat) : widenSample sh v = v * 2 ^ sh % 65536 := by
  simp [widenSample, bitField, Nat.shiftLeft_eq]

theorem widenSample_lt (sh v : Nat) : widenSample sh v < 2 ^ (8 * 2) := Nat.mod_lt _ (Nat.two_pow_pos _)

/-- A byte widened to at most 16 active bits loses no bit. -/
theorem widenSample_byte {sh v : Nat} (hv : v < 2 ^ 8) (hsh : sh ≤ 8) : widenSample sh v = v * 2 ^ sh := by
  rw [widenSample_eq]
  refine Nat.mod_eq_of_lt ?_
  calc v * 2 ^ sh < 2 ^ 8 * 2 ^ sh := Nat.mul_lt_mul_of_pos_right hv (Nat.two_pow_pos sh)
    _ ≤ 2 ^ 8 * 2 ^ 8 := Nat.mul_le_mul_left _ (Nat.pow_le_pow_right two_pos hsh)

theorem rescaleSample_eq (es ed v : Nat) :
    rescaleSample es ed v = if es ≤ ed then v * 2 ^ (ed - es) % 65536 else v / 2 ^ (es - ed) := by
  simp [rescaleSample, bitField, Nat.shiftLeft_eq, Nat.shiftRight_eq_div_pow]

theorem rescaleSample_lt (es ed : Nat) {v : Nat} (hv : v < 2 ^ (8 * 2)) : rescaleSample es ed v < 2 ^ (8 * 2) := by
  rw [rescaleSample_eq]
  split
  · exact Nat.mod_lt _ (by decide)
  · exact (Nat.div_le_self _ _).trans_lt hv

/-! ### The commands -/

/-- Settles O40: the shared loop with the right shift of the source's active bits. -/
theorem narrowResult : Obligations.NarrowResult := by
  rintro s S D rfl rfl hready hn hn' ht hf hl
  have hadm : Prim.narrow.Admits s.bankS.desc s.bankD.desc := ⟨hn, hn', ht, hf, hl⟩
  obtain ⟨m, hexec, hkeep, hsample⟩ := hready.mapSamples_result hadm (rb := 2) (wb := 1) rfl rfl hf
    (Desc.raster_of_nbit16 hready.pair.src hn) hn ht hn' fun v _ => narrowSample_lt _ v
  refine ⟨m, hexec, hkeep, fun i x y hs => ?_⟩
  rw [← Memory.readLE_one, hsample i x y hs, narrowSample_eq, Desc.eab]

/-- Settles O41: the shared loop with the left shift of the destination's active bits, which keeps all of a byte. -/
theorem widenResult : Obligations.WidenResult := by
  rintro s S D rfl rfl hready hn ht hn' hf hl
  have hadm : Prim.widen.Admits s.bankS.desc s.bankD.desc := ⟨hn, ht, hn', hf, hl⟩
  obtain ⟨m, hexec, hkeep, hsample⟩ := hready.mapSamples_result hadm (rb := 1) (wb := 2) rfl rfl hf ht hn
    (Desc.raster_of_nbit16 hready.pair.dst hn') hn' fun v _ => widenSample_lt _ v
  have heab := Desc.eab_le_of_nbit16 hready.pair.dst hn'
  refine ⟨m, hexec, hkeep, fun i x y hs => ?_⟩
  rw [hsample i x y hs, Memory.readLE_one, widenSample_byte (Memory.read _ _).isLt (by omega), Desc.eab]

/-- Settles O42: the shared loop with the shift between the two frames' active bits. -/
theorem rescale16Result : Obligations.Rescale16Result := by
  rintro s S D es ed rfl rfl hready hn hn' hf rfl rfl
  have hadm : Prim.rescale16.Admits s.bankS.desc s.bankD.desc := ⟨hn, hn', hf⟩
  obtain ⟨m, hexec, hkeep, hsample⟩ := hready.mapSamples_result hadm (rb := 2) (wb := 2) rfl rfl hf
    (Desc.raster_of_nbit16 hready.pair.src hn) hn (Desc.raster_of_nbit16 hready.pair.dst hn') hn'
    fun v hv => rescaleSample_lt _ _ hv
  refine ⟨m, hexec, hkeep, fun i x y hs => ?_⟩
  rw [hsample i x y hs, rescaleSample_eq, Desc.eab, Desc.eab]

end Sys2Proof.Machine
end

section
/-! PROOFS. Loops that fill a frame: each pass writes to bytes of the destination the bytes they are to end with, read
from a source the destination does not touch, so the order of the passes does not matter (20_memory.md R62, R72,
41_codec.md R120). -/

namespace Sys2Proof.Machine

/-! ### The bytes of a value -/

/-- Byte `i` of what `MemRead` returns is the byte it read there (20_memory.md R62). -/
theorem Memory.readLE_byte (m : Memory) {addr n i : Nat} (hi : i < n) :
    BitVec.ofNat 8 (Memory.readLE m addr n >>> (8 * i)) = Memory.read m (addr + i) := by
  refine BitVec.eq_of_toNat_eq ?_
  rw [BitVec.toNat_ofNat, Nat.shiftRight_eq_div_pow]
  induction n with
  | zero => cases hi
  | succ n ih =>
    rw [Memory.readLE]
    rcases Nat.lt_succ_iff_lt_or_eq.mp hi with h | rfl
    · have hsplit : 8 * n = 8 * i + (8 + 8 * (n - i - 1)) := by omega
      rw [hsplit, pow_add, mul_left_comm, Nat.add_mul_div_left _ _ (Nat.two_pow_pos _), pow_add, mul_left_comm,
        Nat.add_mul_mod_self_left, ih h]
    · rw [Nat.add_mul_div_right _ _ (Nat.two_pow_pos _), Nat.div_eq_of_lt (Memory.readLE_lt ..), Nat.zero_add]
      exact Nat.mod_eq_of_lt (Memory.read m _).isLt

/-- Equal bytes at two places read as equal values. -/
theorem Memory.readLE_eq {m m' : Memory} {addr addr' n : Nat}
    (h : ∀ i, i < n → Memory.read m' (addr' + i) = Memory.read m (addr + i)) :
    Memory.readLE m' addr' n = Memory.readLE m addr n := by
  induction n with
  | zero => rfl
  | succ n ih =>
    rw [Memory.readLE, Memory.readLE, ih fun i hi => h i (Nat.lt_succ_of_lt hi), h n (Nat.lt_succ_self n)]

/-- A moved sample has the bytes of the one it came from. -/
theorem Memory.read_moveSample_inside {m : Memory} (hm : Memory.wf m = true) {b dst src o : Nat} (ho : o < b)
    (hfit : dst + b ≤ Config.memSize) :
    Memory.read (Memory.moveSample m b dst src) (dst + o) = Memory.read m (src + o) := by
  rw [Memory.moveSample, Memory.read_writeLE_inside hm _ ho hfit, Memory.readLE_byte m ho]

/-! ### Frames that do not share a byte -/

/-- What the body of a primitive knows of its frames once every check has passed: a laid-out pair, the destination inside
memory, no byte in both (41_codec.md R121). -/
structure ApartPair (s d : Desc) : Prop extends FramePair s d where
  fits : d.base + d.ioSize ≤ Config.memSize
  apart : s.base + s.ioSize ≤ d.base ∨ d.base + d.ioSize ≤ s.base

theorem State.FramesReady.apartPair {s : State} (h : s.FramesReady) : ApartPair s.bankS.desc s.bankD.desc := by
  have hpair := h.pair
  obtain ⟨-, -, -, -, -, -, -, hfits, hapart⟩ := h
  exact ⟨hpair, hfits, hapart⟩

/-- Byte `k` of storage row `y` of plane `i` is a natural byte of the frame (42_remapper.md R157). -/
abbrev Desc.hasByte (d : Desc) (i y k : Nat) : Prop :=
  i < (planes d).length ∧ y < storageRows d (plane d i) ∧ k < rowBytes d (plane d i)

/-- The storage rows of a frame lie inside its region (40_classifier_layout.md R113). -/
theorem row_inRegion {d : Desc} (h : layout d.toRequest = .ok d.toDerived) {i y : Nat} (hi : i < (planes d).length)
    (hy : y < storageRows d (plane d i)) :
    d.base ≤ rowAddr d (plane d i) y ∧ rowAddr d (plane d i) y + rowBytes d (plane d i) ≤ d.base + d.ioSize := by
  have hrow := rowAddr_within h hi hy le_rfl
  have hend := plane_end_le_ioSize h hi
  refine ⟨?_, by omega⟩
  unfold rowAddr
  omega

/-- What changes only the destination leaves every natural byte of the source. -/
theorem ApartPair.source_kept {s d : Desc} (h : ApartPair s d) {m m1 : Memory} (hk : keepsOutside d m m1)
    {i y k : Nat} (hb : s.hasByte i y k) :
    Memory.read m1 (rowAddr s (plane s i) y + k) = Memory.read m (rowAddr s (plane s i) y + k) := by
  obtain ⟨hi, hy, hk'⟩ := hb
  have hsrc := row_inRegion h.src hi hy
  have hapart := h.apart
  refine hk _ fun hd => ?_
  have hdst := Desc.naturalByte.inRegion h.dst hd
  omega

/-! ### Filling -/

/-- `f`, run in any memory that differs from `m` inside frame `d` only, fills the bytes `T` of `d` with what `W` gives for
them, and spoils no byte of `d` that already holds what `W` gives for it. A byte of `d` is named by plane, storage row and
offset. -/
structure Fills (d : Desc) (W : Nat → Nat → Nat → Byte) (m : Memory) (T : Nat → Nat → Nat → Prop)
    (f : Memory → Memory) : Prop where
  inFrame : ∀ i y k, T i y k → d.hasByte i y k
  wf : ∀ m1, Memory.wf m1 = true → Memory.wf (f m1) = true
  keeps : ∀ m1, keepsOutside d m1 (f m1)
  stays : ∀ m1, Memory.wf m1 = true → keepsOutside d m m1 → ∀ i y k, d.hasByte i y k →
    Memory.read m1 (rowAddr d (plane d i) y + k) = W i y k →
    Memory.read (f m1) (rowAddr d (plane d i) y + k) = W i y k
  sets : ∀ m1, Memory.wf m1 = true → keepsOutside d m m1 → ∀ i y k, T i y k →
    Memory.read (f m1) (rowAddr d (plane d i) y + k) = W i y k

/-- The `n` bytes from offset `o` on of storage row `y` of plane `i`. -/
def segment (i y o n : Nat) : Nat → Nat → Nat → Prop := fun j z k => j = i ∧ z = y ∧ o ≤ k ∧ k < o + n

namespace Fills
variable {d : Desc} {W : Nat → Nat → Nat → Byte} {m : Memory}

theorem mono {T U : Nat → Nat → Nat → Prop} {f : Memory → Memory} (h : Fills d W m T f)
    (hU : ∀ i y k, U i y k → T i y k) : Fills d W m U f :=
  ⟨fun i y k ht => h.inFrame i y k (hU i y k ht), h.wf, h.keeps, h.stays,
    fun m1 hm1 hk i y k ht => h.sets m1 hm1 hk i y k (hU i y k ht)⟩

theorem skip : Fills d W m (fun _ _ _ => False) (fun m1 => m1) :=
  ⟨nofun, fun _ hm1 => hm1, keepsOutside.refl d, fun _ _ _ _ _ _ _ hv => hv, nofun⟩

/-- One pass after another: what the first filled stays. -/
theorem comp {T U : Nat → Nat → Nat → Prop} {f g : Memory → Memory} (hf : Fills d W m T f) (hg : Fills d W m U g) :
    Fills d W m (fun i y k => T i y k ∨ U i y k) (fun m1 => g (f m1)) where
  inFrame i y k ht := ht.elim (hf.inFrame i y k) (hg.inFrame i y k)
  wf m1 hm1 := hg.wf _ (hf.wf m1 hm1)
  keeps m1 := (hf.keeps m1).trans (hg.keeps _)
  stays m1 hm1 hk i y k hb hv :=
    hg.stays _ (hf.wf m1 hm1) (hk.trans (hf.keeps m1)) i y k hb (hf.stays m1 hm1 hk i y k hb hv)
  sets m1 hm1 hk i y k ht := by
    have hwf := hf.wf m1 hm1
    have hkeep := hk.trans (hf.keeps m1)
    rcases ht with ht | ht
    · exact hg.stays _ hwf hkeep i y k (hf.inFrame i y k ht) (hf.sets m1 hm1 hk i y k ht)
    · exact hg.sets _ hwf hkeep i y k ht

/-- A loop fills what its passes fill. -/
theorem loop {n : Nat} {T : Nat → Nat → Nat → Nat → Prop} {f : Nat → Memory → Memory}
    (h : ∀ j, j < n → Fills d W m (T j) (f j)) :
    Fills d W m (fun i y k => ∃ j, j < n ∧ T j i y k) (iterate n f) := by
  induction n with
  | zero => exact skip.mono fun i y k ⟨j, hj, _⟩ => Nat.not_lt_zero j hj
  | succ n ih =>
    refine ((ih fun j hj => h j (Nat.lt_succ_of_lt hj)).comp (h n (Nat.lt_succ_self n))).mono ?_
    rintro i y k ⟨j, hj, ht⟩
    rcases Nat.lt_succ_iff_lt_or_eq.mp hj with hlt | rfl
    · exact .inl ⟨j, hlt, ht⟩
    · exact .inr ht

/-- A pass that is run only under a condition. -/
theorem cond {T : Nat → Nat → Nat → Prop} {f : Memory → Memory} {c : Prop} [Decidable c]
    (h : c → Fills d W m T f) : Fills d W m (fun i y k => c ∧ T i y k) (fun m1 => if c then f m1 else m1) := by
  by_cases hc : c
  · simpa only [if_pos hc] using (h hc).mono fun i y k ht => ht.2
  · simp only [if_neg hc]
    exact skip.mono fun i y k ht => hc ht.1

/-- A pass that changes `n` bytes of one storage row. The rows of a frame share no byte, so it spoils no other. -/
theorem of_segment (h : layout d.toRequest = .ok d.toDerived) {i y o n : Nat} (hi : i < (planes d).length)
    (hy : y < storageRows d (plane d i)) (hfit : o + n ≤ rowBytes d (plane d i)) {f : Memory → Memory}
    (hwf : ∀ m1, Memory.wf m1 = true → Memory.wf (f m1) = true)
    (hout : ∀ m1 a, a < rowAddr d (plane d i) y + o ∨ rowAddr d (plane d i) y + o + n ≤ a →
      Memory.read (f m1) a = Memory.read m1 a)
    (hset : ∀ m1, Memory.wf m1 = true → keepsOutside d m m1 → ∀ k, k < n →
      Memory.read (f m1) (rowAddr d (plane d i) y + o + k) = W i y (o + k)) :
    Fills d W m (segment i y o n) f := by
  have hsets : ∀ m1, Memory.wf m1 = true → keepsOutside d m m1 → ∀ j z k, segment i y o n j z k →
      Memory.read (f m1) (rowAddr d (plane d j) z + k) = W j z k := by
    rintro m1 hm1 hk j z k ⟨rfl, rfl, hlo, hhi⟩
    obtain ⟨k, rfl⟩ := Nat.exists_eq_add_of_le hlo
    rw [← Nat.add_assoc]
    exact hset m1 hm1 hk k (by omega)
  refine ⟨?_, hwf, fun m1 => (keepsRow_of_bytes rfl hfit (hout m1)).keepsOutside hi hy, ?_, hsets⟩
  · rintro j z k ⟨rfl, rfl, -, hhi⟩
    exact ⟨hi, hy, by omega⟩
  · intro m1 hm1 hk j z k ⟨hj, hz, hkr⟩ hv
    by_cases hin : segment i y o n j z k
    · exact hsets m1 hm1 hk j z k hin
    · refine (hout m1 _ ?_).trans hv
      by_cases hrow : (j, z) = (i, y)
      · obtain ⟨rfl, rfl⟩ := Prod.mk.inj hrow
        have : k < o ∨ o + n ≤ k := by
          by_contra hno
          exact hin ⟨rfl, rfl, by omega⟩
        omega
      · have := storageRows_disjoint h hi hy hj hz hrow
        omega

end Fills

section
variable {s d : Desc} (h : ApartPair s d) {W : Nat → Nat → Nat → Byte} {m : Memory}
include h

/-- A byte copy from a storage row of the source to one of the destination. -/
theorem ApartPair.fills_copyBytes {i y i' y' n : Nat} (hi : i < (planes d).length)
    (hy : y < storageRows d (plane d i)) (hn : n ≤ rowBytes d (plane d i)) (hi' : i' < (planes s).length)
    (hy' : y' < storageRows s (plane s i')) (hn' : n ≤ rowBytes s (plane s i'))
    (hW : ∀ k, k < n → W i y k = Memory.read m (rowAddr s (plane s i') y' + k)) :
    Fills d W m (segment i y 0 n)
      (fun m1 => Memory.copyBytes m1 (rowAddr d (plane d i) y) (rowAddr s (plane s i') y') n) := by
  have hsrc := row_inRegion h.src hi' hy'
  have hdst := row_inRegion h.dst hi hy
  have hfits := h.fits
  have hapart := h.apart
  refine Fills.of_segment h.dst hi hy (by omega) (fun m1 hm1 => Memory.wf_copyBytes hm1 _ _ _)
    (fun m1 a ha => Memory.read_copyBytes_outside m1 ha) fun m1 hm1 hk k hkn => ?_
  rw [Nat.add_zero, Nat.zero_add, hW k hkn, Memory.read_copyBytes_inside hm1 hkn (by omega) (by omega),
    h.source_kept hk ⟨hi', hy', by omega⟩]

/-- The write of one byte that is as it should be whenever only the destination has changed. -/
theorem ApartPair.fills_write {i y o addr : Nat} (hb : d.hasByte i y o) (haddr : addr = rowAddr d (plane d i) y + o)
    {v : Memory → Byte} (hv : ∀ m1, keepsOutside d m m1 → v m1 = W i y o) :
    Fills d W m (segment i y o 1) (fun m1 => Memory.write m1 addr (v m1)) := by
  subst haddr
  obtain ⟨hi, hy, ho⟩ := hb
  have hdst := row_inRegion h.dst hi hy
  have hfits := h.fits
  refine Fills.of_segment h.dst hi hy (by omega) (fun m1 hm1 => Memory.wf_write hm1 _ _)
    (fun m1 a ha => Memory.read_write_ne m1 _ (by omega)) fun m1 hm1 hk k hk1 => ?_
  obtain rfl : k = 0 := by omega
  rw [Nat.add_zero, Memory.read_write_same hm1 (by omega), hv m1 hk, Nat.add_zero]

end

/-- A primitive whose body fills bytes of the destination completes, changes only natural bytes of the destination, and
leaves the filled ones as they should be (41_codec.md R120). -/
theorem State.FramesReady.fill_result {s : State} (h : s.FramesReady) {p : Prim}
    (hadm : p.Admits s.bankS.desc s.bankD.desc)
    (hdepth : p.primitive.equalDepth = true → s.bankS.desc.nbit = s.bankD.desc.nbit)
    {W : Nat → Nat → Nat → Byte} {T : Nat → Nat → Nat → Prop}
    (hfill : Fills s.bankD.desc W s.mem T (p.primitive.body s.bankS.desc s.bankD.desc)) :
    ∃ m : Memory, exec p.instr s = .next (s.doneWith m) ∧ keepsOutside s.bankD.desc s.mem m ∧
      ∀ i y k, T i y k → Memory.read m (rowAddr s.bankD.desc (plane s.bankD.desc i) y + k) = W i y k := by
  have hcompletes := h.completes hadm hdepth
  obtain ⟨hwf, -⟩ := h
  exact ⟨_, hcompletes, hfill.keeps s.mem, hfill.sets s.mem hwf (keepsOutside.refl _ _)⟩

end Sys2Proof.Machine
end

section
/-! PROOFS. `UNTILE8`, `TILE8` and `RECTCOPY`: bodies that fill the destination byte by byte, and tiling undone
(42_remapper.md R143 to R145, R157, R158). -/

namespace Sys2Proof.Machine

theorem forCells_fills {d : Desc} {W : Nat → Nat → Nat → Byte} {m : Memory} {rows ws : Nat}
    {T : Nat → Nat → Nat → Nat → Nat → Nat → Nat → Prop} {f : Nat → Nat → Nat → Nat → Memory → Memory}
    (h : ∀ ty tx r c, ty < ceilDiv rows 4 → tx < ceilDiv ws 8 → r < 4 → c < 8 →
      Fills d W m (T ty tx r c) (f ty tx r c)) :
    Fills d W m (fun i y k => ∃ ty tx r c, ty < ceilDiv rows 4 ∧ tx < ceilDiv ws 8 ∧ r < 4 ∧ c < 8 ∧ T ty tx r c i y k)
      (forCells rows ws f) := by
  refine (Fills.loop fun ty hty => Fills.loop fun tx htx => Fills.loop fun r hr => Fills.loop fun c hc =>
    h ty tx r c hty htx hr hc).mono ?_
  rintro i y k ⟨ty, tx, r, c, hty, htx, hr, hc, ht⟩
  exact ⟨ty, hty, tx, htx, r, hr, c, hc, ht⟩

/-- A sample of an 8-bit raster frame is the byte of that number in its row (20_memory.md R68). -/
theorem Desc.hasByte_raster8 {d : Desc} (ht : d.tiled = false) (hn : d.nbit = 8) {i x y : Nat} :
    d.hasByte i y x ↔ d.hasSample i x y := by
  unfold Desc.hasByte Desc.hasSample
  rw [storageRows_raster ht, rowBytes_raster (b := 1) ht hn, Nat.mul_one, and_comm (a := x < _)]

/-- A byte of an 8-bit tiled frame is a byte of a cell (20_memory.md R70). -/
theorem Desc.hasByte_cell {d : Desc} (h : layout d.toRequest = .ok d.toDerived) (ht : d.tiled = true)
    (hn : d.nbit = 8) {i ty tx o : Nat} (hi : i < (planes d).length) (hty : ty < ceilDiv (plane d i).rows 4)
    (htx : tx < ceilDiv (plane d i).ws 8) (ho : o < 32) : d.hasByte i ty (tx * 32 + o) := by
  refine ⟨hi, by rwa [storageRows_tiled h ht], ?_⟩
  rw [rowBytes_tiled8 h ht hn]
  exact cell_fits htx ho

/-! ### `UNTILE8` -/

/-- What `UNTILE8` fills byte `x` of raster row `y` with: the tiled sample `(x, y)` (20_memory.md R70). -/
def untiledByte (m : Memory) (s : Desc) (i y x : Nat) : Byte := Memory.read m (tileAddr8 s (plane s i) x y)

/-- `UNTILE8` fills every sample of the destination (42_remapper.md R143). -/
theorem bodyUntile8_fills {s d : Desc} (h : ApartPair s d) (hadm : Prim.untile8.Admits s d) (m : Memory) :
    Fills d (untiledByte m s) m (fun i y x => s.hasSample i x y) (bodyUntile8 s d) := by
  obtain ⟨hn, ht, hn', ht', hf⟩ := hadm
  have hfill : ∀ i, i < (planes s).length → ∀ ty tx r c, ty < ceilDiv (plane s i).rows 4 →
      tx < ceilDiv (plane s i).ws 8 → r < 4 → c < 8 →
      Fills d (untiledByte m s) m
        (fun j y x => (8 * tx + c < (plane s i).ws ∧ 4 * ty + r < (plane s i).rows) ∧
          segment i (4 * ty + r) (8 * tx + c) 1 j y x)
        (fun m1 =>
          if 8 * tx + c < (plane s i).ws ∧ 4 * ty + r < (plane s i).rows then
            Memory.write m1 (sampleAddr d (plane d i) 1 (8 * tx + c) (4 * ty + r))
              (Memory.read m1 (s.base + (plane s i).off + ty * (plane s i).stride + tx * 32 + 8 * r + c))
          else m1) := by
    intro i hi ty tx r c hty htx hr hc
    refine Fills.cond fun hin => ?_
    have hd := (h.hasSample_iff hf i (8 * tx + c) (4 * ty + r)).mp ⟨hi, hin⟩
    refine h.fills_write ((Desc.hasByte_raster8 ht' hn').mpr hd) (by rw [sampleAddr, Nat.mul_one]) fun m1 hk => ?_
    have haddr : s.base + (plane s i).off + ty * (plane s i).stride + tx * 32 + 8 * r + c =
        rowAddr s (plane s i) ty + (tx * 32 + (8 * r + c)) := by
      unfold rowAddr
      omega
    have htile : tileAddr8 s (plane s i) (8 * tx + c) (4 * ty + r) =
        rowAddr s (plane s i) ty + (tx * 32 + (8 * r + c)) := by
      rw [tileAddr8, show (4 * ty + r) / 4 = ty by omega, ← haddr]
      omega
    rw [haddr, untiledByte, htile]
    exact h.source_kept hk (Desc.hasByte_cell h.src ht hn hi hty htx (by omega))
  refine (Fills.loop fun i hi => forCells_fills (hfill i hi)).mono fun i y x ⟨hi, hx, hy⟩ => ?_
  refine ⟨i, hi, y / 4, x / 8, y % 4, x % 8, (lt_ceilDiv_iff (by decide)).mpr (by omega),
    (lt_ceilDiv_iff (by decide)).mpr (by omega), by omega, by omega, by omega, rfl, by omega, by omega, by omega⟩

/-- Settles O43: the body fills every sample. -/
theorem untile8Result : Obligations.Untile8Result := by
  rintro s S D rfl rfl hready hn ht hn' ht' hf
  have hadm : Prim.untile8.Admits s.bankS.desc s.bankD.desc := ⟨hn, ht, hn', ht', hf⟩
  obtain ⟨m, hexec, hkeep, hfilled⟩ := hready.fill_result hadm nofun (bodyUntile8_fills hready.apartPair hadm s.mem)
  refine ⟨m, hexec, hkeep, fun i x y hs => ?_⟩
  rw [sampleAddr, Nat.mul_one]
  exact hfilled i y x hs

/-! ### `TILE8` -/

/-- What `TILE8` fills byte `k` of tile row `ty` with: byte `8*r + c` of cell `tx` is raster sample
`(8*tx + c, 4*ty + r)`, or 0 for a pad sample (20_memory.md R70, 42_remapper.md R144). -/
def tiledByte (m : Memory) (s : Desc) (i ty k : Nat) : Byte :=
  if 8 * (k / 32) + k % 8 < (plane s i).ws ∧ 4 * ty + k % 32 / 8 < (plane s i).rows then
    Memory.read m (sampleAddr s (plane s i) 1 (8 * (k / 32) + k % 8) (4 * ty + k % 32 / 8))
  else 0#8

theorem tiledByte_cell (m : Memory) (s : Desc) (i ty tx : Nat) {r c : Nat} (hr : r < 4) (hc : c < 8) :
    tiledByte m s i ty (tx * 32 + (8 * r + c)) =
      if 8 * tx + c < (plane s i).ws ∧ 4 * ty + r < (plane s i).rows then
        Memory.read m (sampleAddr s (plane s i) 1 (8 * tx + c) (4 * ty + r))
      else 0#8 := by
  have htx : (tx * 32 + (8 * r + c)) / 32 = tx := by omega
  have hr' : (tx * 32 + (8 * r + c)) % 32 / 8 = r := by omega
  have hc' : (tx * 32 + (8 * r + c)) % 8 = c := by omega
  rw [tiledByte, htx, hr', hc']

/-- `TILE8` fills every byte of every cell of the destination (42_remapper.md R144). -/
theorem bodyTile8_fills {s d : Desc} (h : ApartPair s d) (hadm : Prim.tile8.Admits s d) (m : Memory) :
    Fills d (tiledByte m s) m
      (fun i ty k => ∃ tx r c, i < (planes d).length ∧ ty < ceilDiv (plane d i).rows 4 ∧
        tx < ceilDiv (plane d i).ws 8 ∧ r < 4 ∧ c < 8 ∧ k = tx * 32 + (8 * r + c))
      (bodyTile8 s d) := by
  obtain ⟨hn, ht, hn', ht', hf⟩ := hadm
  have hlen := h.length_eq hf
  have hfill : ∀ i, i < (planes s).length → ∀ ty tx r c, ty < ceilDiv (plane d i).rows 4 →
      tx < ceilDiv (plane d i).ws 8 → r < 4 → c < 8 →
      Fills d (tiledByte m s) m (segment i ty (tx * 32 + (8 * r + c)) 1)
        (fun m1 =>
          Memory.write m1 (d.base + (plane d i).off + ty * (plane d i).stride + tx * 32 + 8 * r + c)
            (if 8 * tx + c < (plane s i).ws ∧ 4 * ty + r < (plane s i).rows then
              Memory.read m1 (sampleAddr s (plane s i) 1 (8 * tx + c) (4 * ty + r))
            else 0#8)) := by
    intro i hi ty tx r c hty htx hr hc
    refine h.fills_write (Desc.hasByte_cell h.dst ht' hn' (hlen ▸ hi) hty htx (by omega))
      (by unfold rowAddr; omega) fun m1 hk => ?_
    rw [tiledByte_cell m s i ty tx hr hc]
    split
    · rename_i hin
      rw [sampleAddr, Nat.mul_one]
      exact h.source_kept hk ((Desc.hasByte_raster8 ht hn).mpr ⟨hi, hin⟩)
    · rfl
  refine (Fills.loop fun i hi => forCells_fills (hfill i hi)).mono ?_
  rintro i ty k ⟨tx, r, c, hi, hty, htx, hr, hc, rfl⟩
  exact ⟨i, hlen ▸ hi, ty, tx, r, c, hty, htx, hr, hc, rfl, rfl, le_rfl, Nat.lt_succ_self _⟩

/-- Settles O44: the body fills every byte of every cell. -/
theorem tile8Result : Obligations.Tile8Result := by
  rintro s S D rfl rfl hready hn ht hn' ht' hf
  have hadm : Prim.tile8.Admits s.bankS.desc s.bankD.desc := ⟨hn, ht, hn', ht', hf⟩
  obtain ⟨m, hexec, hkeep, hfilled⟩ := hready.fill_result hadm nofun (bodyTile8_fills hready.apartPair hadm s.mem)
  refine ⟨m, hexec, hkeep, fun i tx ty r c hi hty htx hr hc => ?_⟩
  have haddr : rowAddr s.bankD.desc (plane s.bankD.desc i) ty + (tx * 32 + (8 * r + c)) =
      s.bankD.desc.base + (plane s.bankD.desc i).off + ty * (plane s.bankD.desc i).stride + tx * 32 + 8 * r + c := by
    unfold rowAddr
    omega
  rw [← haddr, hfilled i ty _ ⟨tx, r, c, hi, hty, htx, hr, hc, rfl⟩, tiledByte_cell _ _ _ _ _ hr hc]

/-! ### `UNTILE8` after `TILE8` -/

/-- A primitive command that ends without an error passed its checks. -/
theorem exec_prim_admits {p : Prim} {s t : State} (h : exec p.instr s = .next t) (herr : t.status.err = false) :
    p.Admits s.bankS.desc s.bankD.desc := by
  rw [exec_prim] at h
  rcases runPrimitive_cases p.primitive s with ⟨-, e⟩ | ⟨c, -, -, -, e⟩ | ⟨-, -, hc, -⟩ | ⟨-, -, hc, -⟩
  · cases e.symm.trans h
    cases herr
  · cases e.symm.trans h
    cases herr
  · exact Prim.admissible_iff.mp (checkPrimitive_none hc).1
  · exact Prim.admissible_iff.mp (checkPrimitive_none hc).1

/-- Settles O45: the tiled byte that `UNTILE8` reads for sample `(x, y)` is the one `TILE8` wrote for it. -/
theorem tileThenUntile : Obligations.TileThenUntile := by
  intro s t u b hready htile _ herr hready' huntile _ herr' i x y hs
  obtain ⟨hn, ht, hn', ht', hf⟩ := exec_prim_admits (p := .tile8) htile herr
  obtain ⟨-, -, hnb, htb, hfb⟩ := exec_prim_admits (p := .untile8) huntile herr'
  have hsD := (hready.pair.hasSample_iff hf i x y).mp hs
  obtain ⟨mt, htile', -, hcells⟩ := tile8Result s _ _ rfl rfl hready hn ht hn' ht' hf
  obtain ⟨mu, huntile', -, hsamples⟩ := untile8Result _ _ _ rfl rfl hready' hn' ht' hnb htb hfb
  cases htile.symm.trans htile'
  cases huntile.symm.trans huntile'
  obtain ⟨hi, hx, hy⟩ := hsD
  have hcell := hcells i (x / 8) (y / 4) (y % 4) (x % 8) hi ((lt_ceilDiv_iff (by decide)).mpr (by omega))
    ((lt_ceilDiv_iff (by decide)).mpr (by omega)) (by omega) (by omega)
  rw [Nat.div_add_mod, Nat.div_add_mod, if_pos hs.2] at hcell
  exact (hsamples i x y ⟨hi, hx, hy⟩).trans hcell

/-! ### `RECTCOPY` -/

/-- What `RECTCOPY` fills byte `k` of storage row `y` with (42_remapper.md R158). -/
def copiedByte (m : Memory) (s : Desc) (i y k : Nat) : Byte := Memory.read m (rowAddr s (plane s i) y + k)

/-- `RECTCOPY` fills every natural byte of the destination (42_remapper.md R158). -/
theorem bodyRectcopy_fills {s d : Desc} (h : ApartPair s d) (hadm : Prim.rectcopy.Admits s d) (hn : s.nbit = d.nbit)
    (m : Memory) : Fills d (copiedByte m s) m s.hasByte (bodyRectcopy s d) := by
  obtain ⟨hf, ht⟩ := hadm
  have hfill : ∀ i, i < (planes s).length → ∀ y, y < storageRows s (plane s i) →
      Fills d (copiedByte m s) m (segment i y 0 (rowBytes s (plane s i)))
        (fun m1 => Memory.copyBytes m1 (rowAddr d (plane d i) y) (rowAddr s (plane s i) y)
          (rowBytes s (plane s i))) := by
    intro i hi y hy
    have hid := h.length_eq hf ▸ hi
    obtain ⟨hrows, hbytes⟩ := h.storage_eq hf ht hn hid
    exact h.fills_copyBytes hid (hrows ▸ hy) hbytes.le hi hy le_rfl fun k _ => rfl
  refine (Fills.loop fun i hi => Fills.loop (hfill i hi)).mono fun i y k ⟨hi, hy, hk⟩ => ?_
  exact ⟨i, hi, y, hy, rfl, rfl, Nat.zero_le k, by omega⟩

/-- Settles O51: the body fills every natural byte. -/
theorem rectcopyResult : Obligations.RectcopyResult := by
  rintro s S D rfl rfl hready hf ht hn
  have hadm : Prim.rectcopy.Admits s.bankS.desc s.bankD.desc := ⟨hf, ht⟩
  obtain ⟨m, hexec, hkeep, hfilled⟩ :=
    hready.fill_result hadm (fun _ => hn) (bodyRectcopy_fills hready.apartPair hadm hn s.mem)
  exact ⟨m, hexec, hkeep, fun i y k hi hy hk => hfilled i y k ⟨hi, hy, hk⟩⟩

end Sys2Proof.Machine
end

section
/-! PROOFS. `SP2P`, `P2SP`, `PK2P`, `P2PK` and `RESAMPLE`: bodies that fill every sample of the destination with a sample
of the source, by the sample each one takes (42_remapper.md R146 to R155). -/

namespace Sys2Proof.Machine

/-! ### Moving samples -/

/-- Two byte raster frames of one depth: their samples have `s.sb` bytes (42_remapper.md R140). -/
structure SamplePair (s d : Desc) : Prop extends ApartPair s d where
  srcRaster : s.tiled = false
  dstRaster : d.tiled = false
  srcBits : s.nbit = 8 * s.sb
  dstBits : d.nbit = 8 * s.sb

theorem State.FramesReady.samplePair {s : State} (h : s.FramesReady) (hS : s.bankS.desc.ByteRaster)
    (hD : s.bankD.desc.ByteRaster) (hn : s.bankS.desc.nbit = s.bankD.desc.nbit) :
    SamplePair s.bankS.desc s.bankD.desc := by
  have hbits := Desc.nbit_eq_of_rmOk (Desc.rmOk_iff.mpr hS)
  exact ⟨h.apartPair, hS.2, hD.2, hbits, hn ▸ hbits⟩

theorem SamplePair.sb_pos {s d : Desc} (h : SamplePair s d) : 0 < s.sb := by
  have hbits := h.srcBits
  have := Desc.nbit_of_layout h.src
  omega

/-- Byte `k` of a row of `b`-byte samples, each moved from its address in the source. -/
def movedByte (m : Memory) (b : Nat) (src : Nat → Nat → Nat → Nat) (i y k : Nat) : Byte :=
  Memory.read m (src i (k / b) y + k % b)

theorem movedByte_sample (m : Memory) (b : Nat) (src : Nat → Nat → Nat → Nat) (i x y : Nat) {o : Nat} (ho : o < b) :
    movedByte m b src i y (x * b + o) = Memory.read m (src i x y + o) := by
  have hdiv : (x * b + o) / b = x := by
    rw [mul_comm, Nat.mul_add_div (Nat.zero_lt_of_lt ho), Nat.div_eq_of_lt ho, Nat.add_zero]
  rw [movedByte, hdiv, mul_comm, Nat.mul_add_mod, Nat.mod_eq_of_lt ho]

/-- `f` fills the samples `T` of `d`, each with the sample at `src` of its plane, column and row. -/
abbrev MovesSamples (s d : Desc) (src : Nat → Nat → Nat → Nat) (m : Memory) (T : Nat → Nat → Nat → Prop)
    (f : Memory → Memory) : Prop :=
  Fills d (movedByte m s.sb src) m (fun i y k => T i (k / s.sb) y) f

section
variable {s d : Desc} {src : Nat → Nat → Nat → Nat} {m : Memory}

theorem MovesSamples.mono {T U : Nat → Nat → Nat → Prop} {f : Memory → Memory} (h : MovesSamples s d src m T f)
    (hU : ∀ i x y, U i x y → T i x y) : MovesSamples s d src m U f :=
  Fills.mono h fun i y k => hU i (k / s.sb) y

/-- One pass after another, sample by sample. -/
theorem MovesSamples.comp {T U : Nat → Nat → Nat → Prop} {f g : Memory → Memory} (hf : MovesSamples s d src m T f)
    (hg : MovesSamples s d src m U g) : MovesSamples s d src m (fun i x y => T i x y ∨ U i x y) (fun m1 => g (f m1)) :=
  Fills.comp hf hg

theorem forPairs_moves {rows n : Nat} {T : Nat → Nat → Nat → Nat → Nat → Prop} {f : Nat → Nat → Memory → Memory}
    (h : ∀ y p, y < rows → p < n → MovesSamples s d src m (T y p) (f y p)) :
    MovesSamples s d src m (fun i x z => ∃ y p, y < rows ∧ p < n ∧ T y p i x z) (forPairs rows n f) := by
  refine Fills.mono (Fills.loop fun y hy => Fills.loop fun p hp => h y p hy hp) ?_
  rintro i z k ⟨y, p, hy, hp, ht⟩
  exact ⟨y, hy, p, hp, ht⟩

variable (h : SamplePair s d)
include h

/-- The move of one sample. -/
theorem SamplePair.move {i x y i' x' y' : Nat} (hd : d.hasSample i x y) (hs : s.hasSample i' x' y')
    (hsrc : src i x y = sampleAddr s (plane s i') s.sb x' y') :
    MovesSamples s d src m (fun j u z => j = i ∧ u = x ∧ z = y)
      (fun m1 => Memory.moveSample m1 s.sb (sampleAddr d (plane d i) s.sb x y)
        (sampleAddr s (plane s i') s.sb x' y')) := by
  have hfits := sample_inMemory h.dstRaster h.dstBits h.dst h.fits hd
  obtain ⟨hi, hx, hy⟩ := hd
  obtain ⟨hi', hx', hy'⟩ := hs
  have hrow := sample_fits h.srcRaster h.srcBits hx'
  have hsegment : Fills d (movedByte m s.sb src) m (segment i y (x * s.sb) s.sb)
      (fun m1 => Memory.moveSample m1 s.sb (sampleAddr d (plane d i) s.sb x y)
        (sampleAddr s (plane s i') s.sb x' y')) := by
    refine Fills.of_segment h.dst hi (by rwa [storageRows_raster h.dstRaster])
      (sample_fits h.dstRaster h.dstBits hx) (fun m1 hm1 => Memory.wf_writeLE hm1 _ _ _)
      (fun m1 a ha => Memory.read_writeLE_outside m1 ha) fun m1 hm1 hk o ho => ?_
    rw [movedByte_sample _ _ _ _ _ _ ho, hsrc]
    refine (Memory.read_moveSample_inside hm1 ho hfits).trans ?_
    rw [sampleAddr, Nat.add_assoc]
    exact h.source_kept hk ⟨hi', by rwa [storageRows_raster h.srcRaster], by omega⟩
  refine hsegment.mono fun j z k ⟨hj, hu, hz⟩ => ⟨hj, hz, ?_⟩
  have hk := Nat.div_add_mod' k s.sb
  have hlast := Nat.mod_lt k h.sb_pos
  rw [hu] at hk
  omega

/-- `copy_plane` fills its plane (42_remapper.md R141). -/
theorem SamplePair.copyPlane_moves {i i' : Nat} (hi : i < (planes d).length) (hi' : i' < (planes s).length)
    {rowmap : Nat → Nat} (hws : (plane d i).ws ≤ (plane s i').ws)
    (hrows : ∀ y, y < (plane d i).rows → rowmap y < (plane s i').rows)
    (hsrc : ∀ x y, src i x y = sampleAddr s (plane s i') s.sb x (rowmap y)) :
    MovesSamples s d src m (fun j x y => j = i ∧ d.hasSample i x y)
      (copyPlane s (plane s i') d (plane d i) s.sb rowmap) := by
  have hrow : ∀ y, y < (plane d i).rows → Fills d (movedByte m s.sb src) m (segment i y 0 ((plane d i).ws * s.sb))
      (fun m1 => Memory.copyBytes m1 (rowAddr d (plane d i) y) (rowAddr s (plane s i') (rowmap y))
        ((plane d i).ws * s.sb)) := by
    intro y hy
    refine h.fills_copyBytes hi (by rwa [storageRows_raster h.dstRaster]) (rowBytes_raster h.dstRaster h.dstBits _).ge
      hi' (by rw [storageRows_raster h.srcRaster]; exact hrows y hy) ?_ fun k _ => ?_
    · rw [rowBytes_raster h.srcRaster h.srcBits]
      exact Nat.mul_le_mul_right _ hws
    · rw [movedByte, hsrc, sampleAddr, Nat.add_assoc, Nat.div_add_mod']
  refine (Fills.loop hrow).mono fun j y k ⟨hj, _, hx, hy⟩ => ⟨y, hy, hj, rfl, Nat.zero_le k, ?_⟩
  rw [Nat.zero_add]
  exact (Nat.div_lt_iff_lt_mul h.sb_pos).mp hx

end

/-- A primitive whose body fills every sample of the destination completes, changes only natural bytes of the
destination, and leaves each sample with the value of the source sample it takes (41_codec.md R120). -/
theorem State.FramesReady.move_result {s : State} (h : s.FramesReady) {p : Prim}
    (hadm : p.Admits s.bankS.desc s.bankD.desc) (hn : s.bankS.desc.nbit = s.bankD.desc.nbit)
    {src : Nat → Nat → Nat → Nat}
    (hmoves : MovesSamples s.bankS.desc s.bankD.desc src s.mem s.bankD.desc.hasSample
      (p.primitive.body s.bankS.desc s.bankD.desc)) :
    ∃ m : Memory, exec p.instr s = .next (s.doneWith m) ∧ keepsOutside s.bankD.desc s.mem m ∧
      ∀ i x y, s.bankD.desc.hasSample i x y →
        Memory.readLE m (sampleAddr s.bankD.desc (plane s.bankD.desc i) s.bankS.desc.sb x y) s.bankS.desc.sb =
          Memory.readLE s.mem (src i x y) s.bankS.desc.sb := by
  obtain ⟨m, hexec, hkeep, hfilled⟩ := h.fill_result hadm (fun _ => hn) hmoves
  refine ⟨m, hexec, hkeep, fun i x y hs => Memory.readLE_eq fun o ho => ?_⟩
  have hbyte := hfilled i y (x * s.bankS.desc.sb + o)
  rw [movedByte_sample _ _ _ _ _ _ ho, mul_comm, Nat.mul_add_div (Nat.zero_lt_of_lt ho), Nat.div_eq_of_lt ho,
    Nat.add_zero, mul_comm, ← Nat.add_assoc] at hbyte
  exact hbyte hs

/-! ### The samples of a frame -/

theorem hasSample_iff_luma_or_chroma {d : Desc} (h : d.fmt.isSupported = true) {i x y : Nat} :
    d.hasSample i x y ↔ i = 0 ∧ x < d.lumaWidth ∧ y < d.height ∨
      i ≠ 0 ∧ i ≤ d.fmt.chromaPlanes ∧ x < d.chromaWidth ∧ y < d.chromaRows := by
  constructor
  · rintro ⟨hi, hx, hy⟩
    rw [planes_length h] at hi
    by_cases h0 : i = 0
    · subst h0
      rw [plane_zero h] at hx hy
      exact .inl ⟨rfl, hx, hy⟩
    · obtain ⟨hws, hrows⟩ := plane_chroma h h0 (Nat.le_of_lt_succ hi)
      exact .inr ⟨h0, Nat.le_of_lt_succ hi, hws ▸ hx, hrows ▸ hy⟩
  · rintro (⟨rfl, hx, hy⟩ | ⟨h0, hi, hx, hy⟩)
    · exact hasSample_luma h hx hy
    · exact hasSample_chroma h h0 hi hx hy

/-- Frames with chroma have an even width (40_classifier_layout.md R110 check L7). -/
theorem Desc.width_even {d : Desc} (h : layout d.toRequest = .ok d.toDerived) (hc : d.fmt.isMono = false) :
    d.width % 2 = 0 := by
  obtain ⟨-, -, -, -, -, -, -, heven, -⟩ := layoutCheck_none (layout_ok h).1
  exact heven hc

/-- 4:2:0 frames have an even height (40_classifier_layout.md R110 check L8). -/
theorem Desc.height_even {d : Desc} (h : layout d.toRequest = .ok d.toDerived) (hf : d.fmt.is420 = true) :
    d.height % 2 = 0 := by
  obtain ⟨-, -, -, -, -, -, -, -, heven, -⟩ := layoutCheck_none (layout_ok h).1
  exact heven hf

/-- Unpacked frames of one size have the same luma samples. -/
theorem FramePair.luma_iff {s d : Desc} (h : FramePair s d) (hs : s.fmt.isPacked = false)
    (hd : d.fmt.isPacked = false) (x y : Nat) : s.hasSample 0 x y ↔ d.hasSample 0 x y := by
  rw [hasSample_iff_luma_or_chroma (Desc.supported_of_layout h.src),
    hasSample_iff_luma_or_chroma (Desc.supported_of_layout h.dst)]
  simp [Request.lumaWidth, hs, hd, h.width, h.height]

/-- The luma copy of unpacked frames fills the luma plane. -/
theorem SamplePair.copyLuma_moves {s d : Desc} (h : SamplePair s d) {src : Nat → Nat → Nat → Nat} {m : Memory}
    (hs : s.fmt.isPacked = false) (hd : d.fmt.isPacked = false)
    (hsrc : ∀ x y, src 0 x y = sampleAddr s (plane s 0) s.sb x y) :
    MovesSamples s d src m (fun i x y => i = 0 ∧ d.hasSample 0 x y)
      (copyPlane s (plane s 0) d (plane d 0) s.sb id) := by
  have hsupS := Desc.supported_of_layout h.src
  have hsup := Desc.supported_of_layout h.dst
  refine h.copyPlane_moves (by simp [planes_length hsup]) (by simp [planes_length hsupS]) ?_ (fun y hy => ?_) hsrc
  · simp [plane_zero hsupS, plane_zero hsup, Request.lumaWidth, hs, hd, h.width]
  · simpa [plane_zero hsupS, plane_zero hsup, h.height] using hy

theorem PixelFormat.supported_of_semiplanar {f : PixelFormat} (h : f.isSemiplanar = true) :
    f.isSupported = true ∧ f.base.isSupported = true := by
  revert h
  cases f <;> decide

theorem PixelFormat.unpacked_of_semiplanar {f : PixelFormat} (h : f.isSemiplanar = true) :
    f.isPacked = false ∧ f.base.isPacked = false ∧ f.isMono = false := by
  revert h
  cases f <;> decide

/-- The two planar planes of a pair are the two chroma planes (42_remapper.md R146). -/
theorem PixelFormat.first_or_second (f : PixelFormat) {i : Nat} (h0 : i ≠ 0) (hi : i ≤ 2) :
    i = f.first ∨ i = f.second := by
  have : i = 1 ∨ i = 2 := by omega
  revert this
  cases f <;> simp [PixelFormat.first, PixelFormat.second, or_comm]

theorem PixelFormat.second_ne_first (f : PixelFormat) : f.second ≠ f.first := by
  cases f <;> decide

/-- The four semi-planar variants, each with its base format and the planes of its even and odd samples (42_remapper.md
R146). -/
theorem PixelFormat.variant_planes {sp p : PixelFormat} {u v : Nat}
    (h : (sp = .f420sp ∧ p = .f420p ∧ u = 1 ∧ v = 2) ∨ (sp = .f422sp ∧ p = .f422p ∧ u = 1 ∧ v = 2) ∨
      (sp = .f420spa ∧ p = .f420p ∧ u = 2 ∧ v = 1) ∨ (sp = .f422spa ∧ p = .f422p ∧ u = 2 ∧ v = 1)) :
    (sp.isSemiplanar = true ∧ p = sp.base) ∧ u = sp.first ∧ v = sp.second := by
  rcases h with ⟨rfl, rfl, rfl, rfl⟩ | ⟨rfl, rfl, rfl, rfl⟩ | ⟨rfl, rfl, rfl, rfl⟩ | ⟨rfl, rfl, rfl, rfl⟩ <;> decide

/-- A semi-planar frame `sp` has one chroma plane, and a planar frame `p` in its base format has a chroma sample in each
of its two chroma planes for every pair of that plane (20_memory.md R67, 42_remapper.md R146). -/
theorem chromaSamples_of_semiplanar {sp p : Desc} (hsp : sp.fmt.isSemiplanar = true) (hb : p.fmt = sp.fmt.base)
    (hw : sp.width = p.width) (hh : sp.height = p.height) :
    (planes sp).length = 2 ∧ (plane sp 1).ws = sp.width ∧
      ∀ i x y, i ≠ 0 → (p.hasSample i x y ↔ i ≤ 2 ∧ x < (plane sp 1).ws / 2 ∧ y < (plane sp 1).rows) := by
  obtain ⟨hsup, hsup'⟩ := PixelFormat.supported_of_semiplanar hsp
  obtain ⟨hnch, hnch', hwidth, hwidth', hrows⟩ := chroma_of_semiplanar hsp hb hw hh
  obtain ⟨hpws, hprows⟩ := plane_chroma hsup one_ne_zero hnch.ge
  have hws : (plane sp 1).ws = p.width := hpws.trans hwidth
  refine ⟨by rw [planes_length hsup, hnch], hws.trans hw.symm, fun i x y h0 => ?_⟩
  rw [hasSample_iff_luma_or_chroma (hb ▸ hsup'), hnch', hwidth', hws, hprows, hrows]
  simp [h0]

/-! ### `SP2P` -/

/-- Where `SP2P` takes sample `(x, y)` of planar plane `i` from (42_remapper.md R146, R147). -/
def sp2pSource (s : Desc) (i x y : Nat) : Nat :=
  if i = 0 then sampleAddr s (plane s 0) s.sb x y
  else sampleAddr s (plane s 1) s.sb (if i = s.fmt.first then 2 * x else 2 * x + 1) y

theorem sp2pSource_first (s : Desc) (x y : Nat) :
    sp2pSource s s.fmt.first x y = sampleAddr s (plane s 1) s.sb (2 * x) y := by
  rw [sp2pSource, if_neg (PixelFormat.first_chroma _).1, if_pos rfl]

theorem sp2pSource_second (s : Desc) (x y : Nat) :
    sp2pSource s s.fmt.second x y = sampleAddr s (plane s 1) s.sb (2 * x + 1) y := by
  rw [sp2pSource, if_neg (PixelFormat.second_chroma _).1, if_neg (PixelFormat.second_ne_first _)]

/-- `SP2P` fills every sample of the destination (42_remapper.md R147). -/
theorem bodySp2p_moves {s d : Desc} (h : SamplePair s d) (hsp : s.fmt.isSemiplanar = true) (hb : d.fmt = s.fmt.base)
    (m : Memory) : MovesSamples s d (sp2pSource s) m d.hasSample (bodySp2p s d) := by
  obtain ⟨hlen, -, hchroma⟩ := chromaSamples_of_semiplanar hsp hb h.width h.height
  obtain ⟨hpk, hpk', -⟩ := PixelFormat.unpacked_of_semiplanar hsp
  have hdst {i x y : Nat} (h0 : i ≠ 0 ∧ i ≤ 2) (hy : y < (plane s 1).rows) (hx : x < (plane s 1).ws / 2) :
      d.hasSample i x y := (hchroma i x y h0.1).mpr ⟨h0.2, hx, hy⟩
  have hsrc {x y : Nat} (hy : y < (plane s 1).rows) (hx : x < (plane s 1).ws) : s.hasSample 1 x y :=
    ⟨by omega, hx, hy⟩
  have hpairs := forPairs_moves (m := m) fun y p hy hp =>
    (h.move (hdst (PixelFormat.first_chroma s.fmt) hy hp) (hsrc hy (by omega)) (sp2pSource_first s p y)).comp
      (h.move (hdst (PixelFormat.second_chroma s.fmt) hy hp) (hsrc hy (by omega)) (sp2pSource_second s p y))
  refine ((h.copyLuma_moves hpk (hb ▸ hpk') fun _ _ => rfl).comp hpairs).mono fun i x y hs => ?_
  by_cases h0 : i = 0
  · exact .inl ⟨h0, h0 ▸ hs⟩
  · obtain ⟨hi, hx, hy⟩ := (hchroma i x y h0).mp hs
    refine .inr ⟨y, x, hy, hx, ?_⟩
    exact (PixelFormat.first_or_second s.fmt h0 hi).imp (⟨·, rfl, rfl⟩) (⟨·, rfl, rfl⟩)

/-- Settles O46: the body fills every sample. -/
theorem sp2pResult : Obligations.Sp2pResult := by
  rintro s S D b u v rfl rfl hready hS hD hn rfl hvariant
  obtain ⟨hfmt, rfl, rfl⟩ := PixelFormat.variant_planes hvariant
  have hpair := hready.samplePair hS hD hn
  obtain ⟨-, hws, hchroma⟩ := chromaSamples_of_semiplanar hfmt.1 hfmt.2 hpair.width hpair.height
  obtain ⟨hpk, hpk', -⟩ := PixelFormat.unpacked_of_semiplanar hfmt.1
  obtain ⟨m, hexec, hkeep, hsample⟩ := hready.move_result (p := .sp2p)
    ⟨hS, hD, PixelFormat.semiplanar_base_iff.mp hfmt⟩ hn (bodySp2p_moves hpair hfmt.1 hfmt.2 s.mem)
  refine ⟨m, hexec, hkeep, fun x y hs => hsample 0 x y ((hpair.luma_iff hpk (hfmt.2 ▸ hpk') x y).mp hs),
    fun i y hi hy => ?_⟩
  have hpairs {j : Nat} (h0 : j ≠ 0 ∧ j ≤ 2) := hsample j i y ((hchroma j i y h0.1).mpr ⟨h0.2, hws ▸ hi, hy⟩)
  have hfirst := hpairs (PixelFormat.first_chroma s.bankS.desc.fmt)
  have hsecond := hpairs (PixelFormat.second_chroma s.bankS.desc.fmt)
  rw [sp2pSource_first] at hfirst
  rw [sp2pSource_second] at hsecond
  exact ⟨hfirst, hsecond⟩

/-! ### `P2SP` -/

/-- Where `P2SP` takes sample `(x, y)` of plane `i` from (42_remapper.md R146, R148). -/
def p2spSource (s d : Desc) (i x y : Nat) : Nat :=
  if i = 0 then sampleAddr s (plane s 0) s.sb x y
  else sampleAddr s (plane s (if x % 2 = 0 then d.fmt.first else d.fmt.second)) s.sb (x / 2) y

theorem p2spSource_even (s d : Desc) (x y : Nat) :
    p2spSource s d 1 (2 * x) y = sampleAddr s (plane s d.fmt.first) s.sb x y := by
  simp [p2spSource]

theorem p2spSource_odd (s d : Desc) (x y : Nat) :
    p2spSource s d 1 (2 * x + 1) y = sampleAddr s (plane s d.fmt.second) s.sb x y := by
  have hdiv : (2 * x + 1) / 2 = x := by omega
  simp [p2spSource, hdiv]

/-- `P2SP` fills every sample of the destination (42_remapper.md R148). -/
theorem bodyP2sp_moves {s d : Desc} (h : SamplePair s d) (hsp : d.fmt.isSemiplanar = true) (hb : s.fmt = d.fmt.base)
    (m : Memory) : MovesSamples s d (p2spSource s d) m d.hasSample (bodyP2sp s d) := by
  obtain ⟨hlen, hws, hchroma⟩ := chromaSamples_of_semiplanar hsp hb h.width.symm h.height.symm
  obtain ⟨hpk, hpk', hmono⟩ := PixelFormat.unpacked_of_semiplanar hsp
  have heven := Desc.width_even h.dst hmono
  have hsrc {i x y : Nat} (h0 : i ≠ 0 ∧ i ≤ 2) (hy : y < (plane d 1).rows) (hx : x < (plane d 1).ws / 2) :
      s.hasSample i x y := (hchroma i x y h0.1).mpr ⟨h0.2, hx, hy⟩
  have hdst {x y : Nat} (hy : y < (plane d 1).rows) (hx : x < (plane d 1).ws) : d.hasSample 1 x y :=
    ⟨by omega, hx, hy⟩
  have hpairs := forPairs_moves (m := m) fun y p hy hp =>
    (h.move (hdst hy (by omega)) (hsrc (PixelFormat.first_chroma d.fmt) hy hp) (p2spSource_even s d p y)).comp
      (h.move (hdst hy (by omega)) (hsrc (PixelFormat.second_chroma d.fmt) hy hp) (p2spSource_odd s d p y))
  refine ((h.copyLuma_moves (hb ▸ hpk') hpk fun _ _ => rfl).comp hpairs).mono fun i x y hs => ?_
  by_cases h0 : i = 0
  · exact .inl ⟨h0, h0 ▸ hs⟩
  · obtain ⟨hi, hx, hy⟩ := hs
    obtain rfl : i = 1 := by omega
    exact .inr ⟨y, x / 2, hy, by omega, by omega⟩

/-- Settles O47: the body fills every sample. -/
theorem p2spResult : Obligations.P2spResult := by
  rintro s S D b u v rfl rfl hready hS hD hn rfl hvariant
  obtain ⟨hfmt, rfl, rfl⟩ := PixelFormat.variant_planes hvariant
  have hpair := hready.samplePair hS hD hn
  obtain ⟨hlen, hws, -⟩ := chromaSamples_of_semiplanar hfmt.1 hfmt.2 hpair.width.symm hpair.height.symm
  obtain ⟨hpk, hpk', -⟩ := PixelFormat.unpacked_of_semiplanar hfmt.1
  obtain ⟨m, hexec, hkeep, hsample⟩ := hready.move_result (p := .p2sp)
    ⟨hS, hD, PixelFormat.semiplanar_base_iff.mp hfmt⟩ hn (bodyP2sp_moves hpair hfmt.1 hfmt.2 s.mem)
  refine ⟨m, hexec, hkeep, fun x y hs => hsample 0 x y ((hpair.luma_iff (hfmt.2 ▸ hpk') hpk x y).mp hs),
    fun i y hi hy => ?_⟩
  have heven := hsample 1 (2 * i) y ⟨by omega, by omega, hy⟩
  have hodd := hsample 1 (2 * i + 1) y ⟨by omega, by omega, hy⟩
  rw [p2spSource_even] at heven
  rw [p2spSource_odd] at hodd
  exact ⟨heven, hodd⟩

/-! ### `PK2P` -/

/-- The four positions of a group are different (42_remapper.md R150). -/
theorem PixelFormat.groupOrder_distinct (f : PixelFormat) :
    f.groupOrder.iy1 ≠ f.groupOrder.iy0 ∧ f.groupOrder.iu ≠ f.groupOrder.iy0 ∧ f.groupOrder.iu ≠ f.groupOrder.iy1 ∧
      f.groupOrder.iv ≠ f.groupOrder.iy0 ∧ f.groupOrder.iv ≠ f.groupOrder.iy1 ∧ f.groupOrder.iv ≠ f.groupOrder.iu := by
  cases f <;> decide

/-- The two packed formats, each with its group order (42_remapper.md R150). -/
theorem PixelFormat.packed_order {f : PixelFormat} {iy0 iu iy1 iv : Nat}
    (h : (f = .fuyvy ∧ iy0 = 1 ∧ iu = 0 ∧ iy1 = 3 ∧ iv = 2) ∨ (f = .fyuyv ∧ iy0 = 0 ∧ iu = 1 ∧ iy1 = 2 ∧ iv = 3)) :
    f.isPacked = true ∧ f.groupOrder = ⟨iy0, iu, iy1, iv⟩ := by
  rcases h with ⟨rfl, rfl, rfl, rfl, rfl⟩ | ⟨rfl, rfl, rfl, rfl, rfl⟩ <;> decide

/-- The samples of the planar 4:2:2 frame of a packed conversion, two luma and one of each chroma plane to a group. -/
theorem hasSample_f422p_iff {d : Desc} (hf : d.fmt = .f422p) {i x y : Nat} :
    d.hasSample i x y ↔ i = 0 ∧ x < d.width ∧ y < d.height ∨ (i = 1 ∨ i = 2) ∧ x < d.width / 2 ∧ y < d.height := by
  have hsup : d.fmt.isSupported = true := by rw [hf]; rfl
  rw [hasSample_iff_luma_or_chroma hsup]
  have hi : i ≠ 0 ∧ i ≤ 2 ↔ i = 1 ∨ i = 2 := by omega
  simp [Request.lumaWidth, Request.chromaWidth, Request.chromaRows, hf, PixelFormat.isPacked,
    PixelFormat.isSemiplanar, PixelFormat.is420, PixelFormat.chromaPlanes, PixelFormat.isPlanar, ← and_assoc, hi]

/-- Where `PK2P` takes sample `(x, y)` of planar plane `i` from (42_remapper.md R150, R151). -/
def pk2pSource (s : Desc) (i x y : Nat) : Nat :=
  sampleAddr s (plane s 0) s.sb
    (if i = 0 then 4 * (x / 2) + (if x % 2 = 0 then s.fmt.groupOrder.iy0 else s.fmt.groupOrder.iy1)
      else 4 * x + (if i = 1 then s.fmt.groupOrder.iu else s.fmt.groupOrder.iv)) y

/-- One group of `PK2P`, and where its four samples come from (42_remapper.md R150). -/
theorem pk2pSource_group (s : Desc) (p y : Nat) :
    pk2pSource s 0 (2 * p) y = sampleAddr s (plane s 0) s.sb (4 * p + s.fmt.groupOrder.iy0) y ∧
      pk2pSource s 0 (2 * p + 1) y = sampleAddr s (plane s 0) s.sb (4 * p + s.fmt.groupOrder.iy1) y ∧
      pk2pSource s 1 p y = sampleAddr s (plane s 0) s.sb (4 * p + s.fmt.groupOrder.iu) y ∧
      pk2pSource s 2 p y = sampleAddr s (plane s 0) s.sb (4 * p + s.fmt.groupOrder.iv) y := by
  have hdiv : (2 * p + 1) / 2 = p := by omega
  simp [pk2pSource, hdiv]

/-- `PK2P` fills every sample of the destination (42_remapper.md R151). -/
theorem bodyPk2p_moves {s d : Desc} (h : SamplePair s d) (hpk : s.fmt.isPacked = true) (hf : d.fmt = .f422p)
    (m : Memory) : MovesSamples s d (pk2pSource s) m d.hasSample (bodyPk2p s d) := by
  obtain ⟨hiy0, hiu, hiy1, hiv⟩ := PixelFormat.groupOrder_lt s.fmt
  have hwidth := h.width
  have hheight := h.height
  have heven := Desc.width_even h.dst (by rw [hf]; rfl)
  have hgroups : MovesSamples s d (pk2pSource s) m
      (fun i x z => ∃ y p, y < s.height ∧ p < s.width / 2 ∧
        (((i = 0 ∧ x = 2 * p ∧ z = y ∨ i = 0 ∧ x = 2 * p + 1 ∧ z = y) ∨ i = 1 ∧ x = p ∧ z = y) ∨
          i = 2 ∧ x = p ∧ z = y)) (bodyPk2p s d) := by
    refine forPairs_moves fun y p hy hp => ?_
    obtain ⟨hy0, hy1, hu, hv⟩ := hasSample_f422p hf (hwidth ▸ hp) (hheight ▸ hy)
    obtain ⟨ey0, ey1, eu, ev⟩ := pk2pSource_group s p y
    exact (((h.move hy0 (hasSample_packed hpk hp hy hiy0) ey0).comp
      (h.move hy1 (hasSample_packed hpk hp hy hiy1) ey1)).comp
      (h.move hu (hasSample_packed hpk hp hy hiu) eu)).comp (h.move hv (hasSample_packed hpk hp hy hiv) ev)
  refine hgroups.mono fun i x y hs => ?_
  rcases (hasSample_f422p_iff hf).mp hs with ⟨h0, hx, hy⟩ | ⟨h12, hx, hy⟩
  · exact ⟨y, x / 2, by omega, by omega, by omega⟩
  · exact ⟨y, x, by omega, by omega, by omega⟩

/-- Settles O48: the body fills every sample. -/
theorem pk2pResult : Obligations.Pk2pResult := by
  rintro s S D b iy0 iu iy1 iv rfl rfl hready hS hD hn rfl hf horder
  obtain ⟨hpacked, hgroup⟩ := PixelFormat.packed_order horder
  have hpair := hready.samplePair hS hD hn
  obtain ⟨m, hexec, hkeep, hsample⟩ := hready.move_result (p := .pk2p)
    ⟨hS, hD, PixelFormat.isPacked_iff.mp hpacked, hf⟩ hn (bodyPk2p_moves hpair hpacked hf s.mem)
  refine ⟨m, hexec, hkeep, fun p y hp hy => ?_⟩
  obtain ⟨hy0, hy1, hu, hv⟩ := hasSample_f422p hf (hpair.width ▸ hp) (hpair.height ▸ hy)
  obtain ⟨ey0, ey1, eu, ev⟩ := pk2pSource_group s.bankS.desc p y
  rw [hgroup] at ey0 ey1 eu ev
  exact ⟨ey0 ▸ hsample _ _ _ hy0, ey1 ▸ hsample _ _ _ hy1, eu ▸ hsample _ _ _ hu, ev ▸ hsample _ _ _ hv⟩

/-! ### `P2PK` -/

/-- Where `P2PK` takes sample `(x, y)` of the packed plane from (42_remapper.md R150, R152). -/
def p2pkSource (s d : Desc) (_ x y : Nat) : Nat :=
  if x % 4 = d.fmt.groupOrder.iy0 then sampleAddr s (plane s 0) s.sb (2 * (x / 4)) y
  else if x % 4 = d.fmt.groupOrder.iy1 then sampleAddr s (plane s 0) s.sb (2 * (x / 4) + 1) y
  else sampleAddr s (plane s (if x % 4 = d.fmt.groupOrder.iu then 1 else 2)) s.sb (x / 4) y

/-- One group of `P2PK`, and where its four samples come from (42_remapper.md R150). -/
theorem p2pkSource_group (s d : Desc) (p y : Nat) :
    p2pkSource s d 0 (4 * p + d.fmt.groupOrder.iy0) y = sampleAddr s (plane s 0) s.sb (2 * p) y ∧
      p2pkSource s d 0 (4 * p + d.fmt.groupOrder.iy1) y = sampleAddr s (plane s 0) s.sb (2 * p + 1) y ∧
      p2pkSource s d 0 (4 * p + d.fmt.groupOrder.iu) y = sampleAddr s (plane s 1) s.sb p y ∧
      p2pkSource s d 0 (4 * p + d.fmt.groupOrder.iv) y = sampleAddr s (plane s 2) s.sb p y := by
  have hposition (k : Nat) (hk : k < 4) : (4 * p + k) % 4 = k ∧ (4 * p + k) / 4 = p := by omega
  obtain ⟨hiy0, hiu, hiy1, hiv⟩ := PixelFormat.groupOrder_lt d.fmt
  obtain ⟨hy1, hu, hu', hv, hv', hv''⟩ := PixelFormat.groupOrder_distinct d.fmt
  simp [p2pkSource, hposition _ hiy0, hposition _ hiy1, hposition _ hiu, hposition _ hiv, hy1, hu, hu', hv, hv', hv'']

/-- Every position of a group is one of the four (42_remapper.md R150). -/
theorem PixelFormat.groupOrder_covers (f : PixelFormat) {k : Nat} (hk : k < 4) :
    k = f.groupOrder.iy0 ∨ k = f.groupOrder.iy1 ∨ k = f.groupOrder.iu ∨ k = f.groupOrder.iv := by
  obtain ⟨hiy0, hiu, hiy1, hiv⟩ := PixelFormat.groupOrder_lt f
  obtain ⟨hy1, hu, hu', hv, hv', hv''⟩ := PixelFormat.groupOrder_distinct f
  omega

/-- `P2PK` fills every sample of the destination (42_remapper.md R152). -/
theorem bodyP2pk_moves {s d : Desc} (h : SamplePair s d) (hf : s.fmt = .f422p) (hpk : d.fmt.isPacked = true)
    (m : Memory) : MovesSamples s d (p2pkSource s d) m d.hasSample (bodyP2pk s d) := by
  obtain ⟨hiy0, hiu, hiy1, hiv⟩ := PixelFormat.groupOrder_lt d.fmt
  have hwidth := h.width
  have hheight := h.height
  have hsup := Desc.supported_of_layout h.dst
  have heven := Desc.width_even h.src (by rw [hf]; rfl)
  have hgroups : MovesSamples s d (p2pkSource s d) m
      (fun i x z => ∃ y p, y < s.height ∧ p < s.width / 2 ∧
        (((i = 0 ∧ x = 4 * p + d.fmt.groupOrder.iy0 ∧ z = y ∨ i = 0 ∧ x = 4 * p + d.fmt.groupOrder.iy1 ∧ z = y) ∨
          i = 0 ∧ x = 4 * p + d.fmt.groupOrder.iu ∧ z = y) ∨ i = 0 ∧ x = 4 * p + d.fmt.groupOrder.iv ∧ z = y))
      (bodyP2pk s d) := by
    refine forPairs_moves fun y p hy hp => ?_
    obtain ⟨hy0, hy1, hu, hv⟩ := hasSample_f422p hf hp hy
    obtain ⟨ey0, ey1, eu, ev⟩ := p2pkSource_group s d p y
    have hdst {k : Nat} (hk : k < 4) : d.hasSample 0 (4 * p + k) y :=
      hasSample_packed hpk (hwidth ▸ hp) (hheight ▸ hy) hk
    exact (((h.move (hdst hiy0) hy0 ey0).comp (h.move (hdst hiy1) hy1 ey1)).comp
      (h.move (hdst hiu) hu eu)).comp (h.move (hdst hiv) hv ev)
  refine hgroups.mono fun i x y hs => ?_
  have hnch : d.fmt.chromaPlanes = 0 := by
    rcases PixelFormat.isPacked_iff.mp hpk with e | e <;> rw [e] <;> rfl
  rcases (hasSample_iff_luma_or_chroma hsup).mp hs with ⟨h0, hx, hy⟩ | ⟨h0, hi, -, -⟩
  · rw [Request.lumaWidth, if_pos hpk] at hx
    have hposition := PixelFormat.groupOrder_covers d.fmt (Nat.mod_lt x (by decide : 0 < 4))
    exact ⟨y, x / 4, by omega, by omega, by omega⟩
  · omega

/-- Settles O49: the body fills every sample. -/
theorem p2pkResult : Obligations.P2pkResult := by
  rintro s S D b iy0 iu iy1 iv rfl rfl hready hS hD hn rfl hf horder
  obtain ⟨hpacked, hgroup⟩ := PixelFormat.packed_order horder
  have hpair := hready.samplePair hS hD hn
  obtain ⟨m, hexec, hkeep, hsample⟩ := hready.move_result (p := .p2pk)
    ⟨hS, hD, PixelFormat.isPacked_iff.mp hpacked, hf⟩ hn (bodyP2pk_moves hpair hf hpacked s.mem)
  refine ⟨m, hexec, hkeep, fun p y hp hy => ?_⟩
  obtain ⟨hiy0, hiu, hiy1, hiv⟩ := PixelFormat.groupOrder_lt s.bankD.desc.fmt
  obtain ⟨ey0, ey1, eu, ev⟩ := p2pkSource_group s.bankS.desc s.bankD.desc p y
  have hdst {k : Nat} (hk : k < 4) := hsample 0 (4 * p + k) y
    (hasSample_packed hpacked (hpair.width ▸ hp) (hpair.height ▸ hy) hk)
  rw [hgroup] at ey0 ey1 eu ev hiy0 hiu hiy1 hiv
  exact ⟨ey0 ▸ hdst hiy0, ey1 ▸ hdst hiy1, eu ▸ hdst hiu, ev ▸ hdst hiv⟩

/-! ### `RESAMPLE` -/

/-- The row map of chroma rows (42_remapper.md R154). -/
theorem chromaRowMap_eq (sf df : PixelFormat) (j : Nat) :
    chromaRowMap sf df j =
      if sf = .f422p ∧ df = .f420p then 2 * j else if sf = .f420p ∧ df = .f422p then j / 2 else j := by
  unfold chromaRowMap
  split
  · simp [Nat.shiftLeft_eq, mul_comm]
  · simp [Nat.shiftRight_eq_div_pow]
  · rename_i hno hno'
    rw [if_neg fun e => hno e.1 e.2, if_neg fun e => hno' e.1 e.2]

/-- Where `RESAMPLE` takes sample `(x, y)` of plane `i` from (42_remapper.md R154, R155). -/
def resampleSource (s d : Desc) (i x y : Nat) : Nat :=
  sampleAddr s (plane s i) s.sb x (if i = 0 then y else chromaRowMap s.fmt d.fmt y)

/-- The chroma planes of two planar frames have equally long rows, and the row map stays inside the source's. -/
theorem FramePair.chromaRowMap_lt {s d : Desc} (h : FramePair s d) (hs : s.fmt.isPlanar = true)
    (hd : d.fmt.isPlanar = true) :
    s.chromaWidth = d.chromaWidth ∧ ∀ j, j < d.chromaRows → chromaRowMap s.fmt d.fmt j < s.chromaRows := by
  have heven := Desc.height_even h.src
  have hheight := h.height
  rcases PixelFormat.isPlanar_iff.mp hs with es | es <;> rcases PixelFormat.isPlanar_iff.mp hd with ed | ed <;>
    simp [Request.chromaWidth, Request.chromaRows, chromaRowMap_eq, es, ed, PixelFormat.isSemiplanar,
      PixelFormat.is420, h.width, hheight] at heven ⊢ <;> omega

/-- `RESAMPLE` fills every sample of the destination (42_remapper.md R155). -/
theorem bodyResample_moves {s d : Desc} (h : SamplePair s d) (hs : s.fmt.isPlanar = true)
    (hd : d.fmt.isPlanar = true) (m : Memory) :
    MovesSamples s d (resampleSource s d) m d.hasSample (bodyResample s d) := by
  have hsupS := Desc.supported_of_layout h.src
  have hsup := Desc.supported_of_layout h.dst
  have hnch {f : PixelFormat} (hf : f.isPlanar = true) : f.chromaPlanes = 2 := if_pos hf
  have hunpacked {f : PixelFormat} (hf : f.isPlanar = true) : f.isPacked = false :=
    (PixelFormat.not_mono_packed_of_chromaPlanes (hnch hf ▸ two_pos)).2
  have hlen : (planes d).length = 3 := by rw [planes_length hsup, hnch hd]
  obtain ⟨hws, hrows⟩ := h.chromaRowMap_lt hs hd
  have hchroma {i : Nat} (h0 : i ≠ 0) (hi : i ≤ 2) : MovesSamples s d (resampleSource s d) m
      (fun j x y => j = i ∧ d.hasSample i x y)
      (copyPlane s (plane s i) d (plane d i) s.sb (chromaRowMap s.fmt d.fmt)) := by
    obtain ⟨hwsS, hrowsS⟩ := plane_chroma hsupS h0 (hnch hs ▸ hi)
    obtain ⟨hwsD, hrowsD⟩ := plane_chroma hsup h0 (hnch hd ▸ hi)
    refine h.copyPlane_moves (by omega) (by rw [planes_length hsupS, hnch hs]; omega) (by omega)
      (fun y hy => hrowsS ▸ hrows y (hrowsD ▸ hy)) fun x y => ?_
    rw [resampleSource, if_neg h0]
  refine (((h.copyLuma_moves (hunpacked hs) (hunpacked hd) fun _ _ => rfl).comp
    (hchroma one_ne_zero one_le_two)).comp (hchroma two_ne_zero le_rfl)).mono fun i x y hs => ?_
  have hi : i = 0 ∨ i = 1 ∨ i = 2 := by
    have := hs.1
    omega
  rcases hi with rfl | rfl | rfl
  · exact .inl (.inl ⟨rfl, hs⟩)
  · exact .inl (.inr ⟨rfl, hs⟩)
  · exact .inr ⟨rfl, hs⟩

/-- Settles O50: the body fills every sample. -/
theorem resampleResult : Obligations.ResampleResult := by
  rintro s S D b rfl rfl hready hS hD hn rfl hfS hfD
  have hpair := hready.samplePair hS hD hn
  have hplS := PixelFormat.isPlanar_iff.mpr hfS
  have hplD := PixelFormat.isPlanar_iff.mpr hfD
  have hpkS : s.bankS.desc.fmt.isPacked = false := by rcases hfS with e | e <;> rw [e] <;> rfl
  have hpkD : s.bankD.desc.fmt.isPacked = false := by rcases hfD with e | e <;> rw [e] <;> rfl
  obtain ⟨m, hexec, hkeep, hsample⟩ := hready.move_result (p := .resample) ⟨hS, hD, hfS, hfD⟩ hn
    (bodyResample_moves hpair hplS hplD s.mem)
  refine ⟨m, hexec, hkeep, fun x y hs => hsample 0 x y ((hpair.luma_iff hpkS hpkD x y).mp hs),
    fun i x j hi hs => ?_⟩
  have hchroma := hsample i x j hs
  rw [resampleSource, if_neg (by omega), chromaRowMap_eq] at hchroma
  exact hchroma

end Sys2Proof.Machine
end

section
/-! PROOFS. The steps a plan consists of: what each stage appends, so the stages and primitives of a plan are those its
two descriptors call for, in order (43_orchestrator.md R171 to R173). -/

namespace Sys2Proof.Machine

/-! ### Appended steps -/

/-- The descriptor a list of steps ends in, from the working descriptor `d` (43_orchestrator.md R173). -/
def lastDesc (d : Desc) (steps : List PlanStep) : Desc :=
  match steps.getLast? with
  | some x => x.next
  | none => d

@[simp] theorem lastDesc_nil (d : Desc) : lastDesc d [] = d := rfl

@[simp] theorem lastDesc_snoc (d : Desc) (l : List PlanStep) (x : PlanStep) : lastDesc d (l ++ [x]) = x.next := by
  simp [lastDesc]

theorem lastDesc_append (d : Desc) (l l' : List PlanStep) : lastDesc d (l ++ l') = lastDesc (lastDesc d l) l' := by
  rcases List.eq_nil_or_concat l' with rfl | ⟨init, x, rfl⟩
  · rw [List.append_nil, lastDesc_nil]
  · rw [List.concat_eq_append, ← List.append_assoc, lastDesc_snoc, lastDesc_snoc]

/-- `q` is `p` with steps of these stages and primitives more; its working descriptor is the last one's output. -/
def Planner.Appends (p q : Planner) (l : List (Stage × Prim)) : Prop :=
  ∃ added : List PlanStep, q.steps = p.steps ++ added ∧ added.map (fun x => (x.stage, x.prim)) = l ∧
    q.cur = lastDesc p.cur added

theorem Planner.Appends.refl (p : Planner) : p.Appends p [] := ⟨[], (List.append_nil _).symm, rfl, rfl⟩

theorem Planner.Appends.trans {p q r : Planner} {l l' : List (Stage × Prim)} (h : p.Appends q l) (h' : q.Appends r l') :
    p.Appends r (l ++ l') := by
  obtain ⟨a, hsteps, rfl, hcur⟩ := h
  obtain ⟨b, hsteps', rfl, hcur'⟩ := h'
  exact ⟨a ++ b, by rw [hsteps', hsteps, List.append_assoc], List.map_append, by rw [hcur', hcur, lastDesc_append]⟩

/-- One added step, and the request its output is laid out for. -/
theorem Planner.appends_addStep {p q : Planner} {g : PlanGoal} {stage : Stage} {op : Prim} {r : Request}
    (h : p.addStep g stage op r = .ok q) :
    p.Appends q [(stage, op)] ∧ q.cur.toRequest = { r with bufSize := p.capacity g } := by
  obtain ⟨der, -, hcur, hsteps⟩ := addStep_ok h
  exact ⟨⟨_, hsteps, rfl, rfl⟩, by rw [hcur]⟩

/-! ### The stages the two descriptors call for -/

/-- Stage 1 from descriptor `s`. -/
def stageOne (s : Desc) : List (Stage × Prim) :=
  if s.nbit = 10 then [(.s1, .unpack10)] else if s.nbit = 8 ∧ s.tiled = true then [(.s1, .untile8)] else []

/-- The depth of a frame once stage 1 has run. -/
def Desc.rasterDepth (s : Desc) : Nat := if s.nbit = 10 then 16 else s.nbit

/-- The effective active bits of a 16-bit frame once stage 1 has run. -/
def Desc.rasterEab (s : Desc) : Nat := if s.nbit = 10 then 10 else s.eab

/-- Stage 2 from a raster frame of depth `nbit` and `eab` effective active bits to the requested descriptor `d`. -/
def stageTwo (nbit eab : Nat) (d : Desc) : List (Stage × Prim) :=
  if d.nbit = 8 then if nbit = 16 then [(.s2, .narrow)] else []
  else if nbit = 8 then [(.s2, .widen)]
  else if nbit = 16 ∧ eab ≠ d.rasterEab then [(.s2, .rescale16)] else []

/-- A step `st` by the primitive for semi-planar or the one for packed formats; none for a base format (stages 3a and
3c). -/
def variantStep (f : PixelFormat) (st : Stage) (semiplanar packed : Prim) : List (Stage × Prim) :=
  if f.isSemiplanar then [(st, semiplanar)] else if f.isPacked then [(st, packed)] else []

/-- Stage 3 from format `f` to format `f'`. -/
def stageThree (f f' : PixelFormat) : List (Stage × Prim) :=
  if f = f' then []
  else variantStep f .s3a .sp2p .pk2p ++ (if f.base = f'.base then [] else [(.s3b, .resample)]) ++
    variantStep f' .s3c .p2sp .p2pk

/-- Stage 4 to the requested descriptor `d`. -/
def stageFour (d : Desc) : List (Stage × Prim) :=
  if d.nbit = 10 then [(.s4, .pack10)] else if d.nbit = 8 ∧ d.tiled = true then [(.s4, .tile8)] else []

theorem stagesOneToFour_eq (s d : Desc) :
    stagesOneToFour s d =
      if s.fmt = d.fmt ∧ s.nbit = d.nbit ∧ (s.nbit = 16 → s.eab = d.eab) ∧ s.tiled = d.tiled then []
      else stageOne s ++ stageTwo s.rasterDepth s.rasterEab d ++ stageThree s.fmt d.fmt ++ stageFour d := rfl

/-- Active bits matter to stage 2 only at depth 16. -/
theorem stageTwo_congr {nbit e e' : Nat} (h : nbit = 16 → e = e') (d : Desc) :
    stageTwo nbit e d = stageTwo nbit e' d := by
  by_cases hn : nbit = 16
  · rw [h hn]
  · simp [stageTwo, hn]

/-- A format needs a variant's step exactly when it is not its own base format. -/
theorem variantStep_eq (f : PixelFormat) (st : Stage) (semiplanar packed : Prim) :
    variantStep f st semiplanar packed =
      if f = f.base then [] else [(st, if f.isSemiplanar then semiplanar else packed)] := by
  cases f <;> rfl

theorem PlanGoal.workEab_eq {g : PlanGoal} (h : g.dst.nbit ≠ 8) : g.workEab = g.dst.rasterEab := by
  unfold workEab workNlsb Desc.rasterEab Desc.eab
  rw [if_neg h]
  split <;> rfl

theorem planNeed_iff {s d : Desc} :
    planNeed s d = true ↔
      ¬(s.fmt = d.fmt ∧ s.nbit = d.nbit ∧ (s.nbit = 16 → s.eab = d.eab) ∧ s.tiled = d.tiled) := by
  simp only [planNeed, Bool.or_eq_true, Bool.and_eq_true, bne_iff_ne, beq_iff_eq]
  tauto

/-! ### What each stage appends -/

section
variable {g : PlanGoal} {p q : Planner}

theorem planS1_appends (h : planS1 g p = .ok q) :
    p.Appends q (stageOne p.cur) ∧ q.cur.fmt = p.cur.fmt ∧ q.cur.nbit = p.cur.rasterDepth ∧
      (q.cur.nbit = 16 → q.cur.eab = p.cur.rasterEab) := by
  unfold planS1 at h
  unfold stageOne Desc.rasterDepth Desc.rasterEab
  split at h
  · rename_i h10
    obtain ⟨ha, hr⟩ := Planner.appends_addStep h
    simp only [if_pos h10, Desc.eab, hr]
    exact ⟨ha, rfl, rfl, fun _ => rfl⟩
  · rename_i h10
    simp only [if_neg h10]
    split at h
    · rename_i h8
      obtain ⟨ha, hr⟩ := Planner.appends_addStep h
      simp only [if_pos h8, hr]
      exact ⟨ha, rfl, h8.1.symm, nofun⟩
    · rename_i h8
      cases h
      rw [if_neg h8]
      exact ⟨.refl p, rfl, rfl, fun _ => rfl⟩

theorem planS2_appends (h : planS2 g p = .ok q) :
    p.Appends q (stageTwo p.cur.nbit p.cur.eab g.dst) ∧ q.cur.fmt = p.cur.fmt := by
  unfold planS2 at h
  unfold stageTwo
  rcases g.workDepth_eq with ⟨hd, h8⟩ | ⟨hd, h8⟩
  · simp only [hd, Nat.reduceEqDiff, and_true, and_false, false_and, if_false] at h
    rw [if_pos h8]
    split at h
    · rename_i hn
      split at h
      · cases h
      · obtain ⟨ha, hr⟩ := Planner.appends_addStep h
        rw [if_pos hn]
        exact ⟨ha, by rw [hr]; rfl⟩
    · rename_i hn
      cases h
      rw [if_neg hn]
      exact ⟨.refl p, rfl⟩
  · simp only [hd, Nat.reduceEqDiff, and_true, and_false, if_false, true_and, PlanGoal.workEab_eq h8] at h
    rw [if_neg h8]
    split at h
    · rename_i hn
      split at h
      · cases h
      · obtain ⟨ha, hr⟩ := Planner.appends_addStep h
        rw [if_pos hn]
        exact ⟨ha, by rw [hr]; rfl⟩
    · rename_i hn
      rw [if_neg hn]
      split at h
      · rename_i he
        obtain ⟨ha, hr⟩ := Planner.appends_addStep h
        rw [if_pos he]
        exact ⟨ha, by rw [hr]; rfl⟩
      · rename_i he
        cases h
        rw [if_neg he]
        exact ⟨.refl p, rfl⟩

theorem planS3a_appends (hne : p.cur.fmt ≠ g.dst.fmt) (h : planS3a g p = .ok q) :
    p.Appends q (variantStep p.cur.fmt .s3a .sp2p .pk2p) ∧ q.cur.fmt = p.cur.fmt.base := by
  unfold planS3a at h
  rw [variantStep_eq]
  split at h
  · rename_i hb
    obtain ⟨ha, hr⟩ := Planner.appends_addStep h
    rw [if_neg hb.2]
    exact ⟨ha, congrArg Request.fmt hr⟩
  · rename_i hb
    have hbase : p.cur.fmt = p.cur.fmt.base := by_contra fun hn => hb ⟨hne, hn⟩
    cases h
    rw [if_pos hbase]
    exact ⟨.refl p, hbase⟩

theorem planS3b_appends (h : planS3b g p = .ok q) :
    p.Appends q (if p.cur.fmt = g.dst.fmt.base then [] else [(.s3b, .resample)]) ∧ q.cur.fmt = g.dst.fmt.base := by
  unfold planS3b at h
  split at h
  · rename_i hne
    obtain ⟨ha, hr⟩ := Planner.appends_addStep h
    rw [if_neg (Ne.symm hne)]
    exact ⟨ha, congrArg Request.fmt hr⟩
  · rename_i heq
    cases h
    rw [if_pos (not_not.mp heq).symm]
    exact ⟨.refl p, (not_not.mp heq).symm⟩

theorem planS3c_appends (hbase : p.cur.fmt = g.dst.fmt.base) (h : planS3c g p = .ok q) :
    p.Appends q (variantStep g.dst.fmt .s3c .p2sp .p2pk) := by
  unfold planS3c at h
  rw [hbase] at h
  rw [variantStep_eq]
  split at h
  · rename_i hne
    rw [if_neg hne]
    exact (Planner.appends_addStep h).1
  · rename_i heq
    cases h
    rw [if_pos (not_not.mp heq)]
    exact .refl p

theorem planS3_appends (h : planS3 g p = .ok q) : p.Appends q (stageThree p.cur.fmt g.dst.fmt) := by
  unfold planS3 at h
  unfold stageThree
  split at h
  · rename_i hne
    obtain ⟨p₂, h, hc⟩ := PlanResult.bind_ok h
    obtain ⟨p₁, ha, hb⟩ := PlanResult.bind_ok h
    obtain ⟨ha, hbase⟩ := planS3a_appends hne ha
    obtain ⟨hb, hbase'⟩ := planS3b_appends hb
    rw [hbase] at hb
    rw [if_neg hne]
    exact (ha.trans hb).trans (planS3c_appends hbase' hc)
  · rename_i heq
    cases h
    rw [if_pos (not_not.mp heq)]
    exact .refl p

theorem planS4_appends (h : planS4 g p = .ok q) : p.Appends q (stageFour g.dst) := by
  unfold planS4 at h
  unfold stageFour
  split at h
  · rename_i h10
    rw [if_pos h10]
    exact (Planner.appends_addStep h).1
  · rename_i h10
    rw [if_neg h10]
    split at h
    · rename_i h8
      rw [if_pos h8]
      exact (Planner.appends_addStep h).1
    · rename_i h8
      cases h
      rw [if_neg h8]
      exact .refl p

theorem planStages_appends (h : planStages g p = .ok q) :
    p.Appends q (stageOne p.cur ++ stageTwo p.cur.rasterDepth p.cur.rasterEab g.dst ++
      stageThree p.cur.fmt g.dst.fmt ++ stageFour g.dst) := by
  obtain ⟨p₃, h, h4⟩ := PlanResult.bind_ok h
  obtain ⟨p₂, h, h3⟩ := PlanResult.bind_ok h
  obtain ⟨p₁, h1, h2⟩ := PlanResult.bind_ok h
  obtain ⟨h1, hfmt₁, hdepth, heab⟩ := planS1_appends h1
  obtain ⟨h2, hfmt₂⟩ := planS2_appends h2
  have h3 := planS3_appends h3
  rw [stageTwo_congr heab, hdepth] at h2
  rw [hfmt₂, hfmt₁] at h3
  exact ((h1.trans h2).trans h3).trans (planS4_appends h4)

/-- Stages 1 to 4 of a plan, and the planner that goes on to stage 5. -/
theorem plan_front {s : Desc} (h : plan s g = .ok q) :
    ∃ p : Planner, p.steps.map (fun x => (x.stage, x.prim)) = stagesOneToFour s g.dst ∧ p.cur = lastDesc s p.steps ∧
      planS5 g p = .ok q := by
  obtain ⟨p, h, h5⟩ := PlanResult.bind_ok h
  rw [stagesOneToFour_eq]
  split at h
  · rename_i hneed
    obtain ⟨front, hsteps, hmap, hcur⟩ := planStages_appends h
    obtain rfl : p.steps = front := hsteps
    rw [if_neg (planNeed_iff.mp hneed)]
    exact ⟨p, hmap, hcur, h5⟩
  · rename_i hneed
    cases h
    rw [if_pos (not_not.mp (mt planNeed_iff.mpr hneed))]
    exact ⟨_, rfl, rfl, h5⟩

/-- Stage 5 runs exactly when the stride or the frame size reached so far is not the requested one. -/
theorem planS5_steps (h : planS5 g p = .ok q) :
    p.cur.yStride = g.dst.yStride ∧ p.cur.ioSize = g.dst.ioSize ∧ q.steps = p.steps ∨
      ¬(p.cur.yStride = g.dst.yStride ∧ p.cur.ioSize = g.dst.ioSize) ∧
        q.steps = p.steps ++ [{ stage := .s5, prim := .rectcopy, next := q.cur }] := by
  unfold planS5 at h
  split at h
  · rename_i hne
    obtain ⟨der, -, -, hsteps⟩ := addStep_ok h
    exact .inr ⟨not_and_or.mpr hne, hsteps⟩
  · rename_i heq
    obtain ⟨hy, hio⟩ := not_or.mp heq
    cases h
    exact .inl ⟨not_not.mp hy, not_not.mp hio, rfl⟩

end

/-- Settles O56: each stage appends the steps its two descriptors call for. -/
theorem planFollowsStages : Obligations.PlanFollowsStages := by
  intro s g q h
  obtain ⟨p, hmap, hcur, h5⟩ := plan_front h
  refine ⟨p.steps, p.cur, hmap, hcur, fun heq => ?_, fun hne => ?_⟩
  · rcases planS5_steps h5 with ⟨-, -, hsteps⟩ | ⟨hne, -⟩
    · exact hsteps
    · exact absurd heq hne
  · rcases planS5_steps h5 with ⟨hy, hio, -⟩ | ⟨-, hsteps⟩
    · exact absurd ⟨hy, hio⟩ hne
    · exact ⟨_, hsteps, rfl, rfl⟩

/-! ### The order of the stages -/

theorem variantStep_sublist (f : PixelFormat) (st : Stage) (a b : Prim) :
    ((variantStep f st a b).map Prod.fst).Sublist [st] := by
  unfold variantStep
  split_ifs <;> simp

theorem stageOne_sublist (s : Desc) : ((stageOne s).map Prod.fst).Sublist [.s1] := by
  unfold stageOne
  split_ifs <;> simp

theorem stageTwo_sublist (nbit eab : Nat) (d : Desc) : ((stageTwo nbit eab d).map Prod.fst).Sublist [.s2] := by
  unfold stageTwo
  split_ifs <;> simp

theorem stageThree_sublist (f f' : PixelFormat) :
    ((stageThree f f').map Prod.fst).Sublist ([.s3a] ++ [.s3b] ++ [.s3c]) := by
  unfold stageThree
  split
  · exact List.nil_sublist _
  · rw [List.map_append, List.map_append]
    refine ((variantStep_sublist _ _ _ _).append ?_).append (variantStep_sublist _ _ _ _)
    split <;> simp

theorem stageFour_sublist (d : Desc) : ((stageFour d).map Prod.fst).Sublist [.s4] := by
  unfold stageFour
  split_ifs <;> simp

theorem stagesOneToFour_sublist (s d : Desc) :
    ((stagesOneToFour s d).map Prod.fst).Sublist [.s1, .s2, .s3a, .s3b, .s3c, .s4] := by
  rw [stagesOneToFour_eq]
  split
  · exact List.nil_sublist _
  · simp only [List.map_append]
    exact (((stageOne_sublist s).append (stageTwo_sublist _ _ d)).append (stageThree_sublist _ _)).append
      (stageFour_sublist d)

/-- The stages of a plan, in order, are some of the seven in their order (43_orchestrator.md R172). -/
theorem plan_stages_sublist {s : Desc} {g : PlanGoal} {q : Planner} (h : plan s g = .ok q) :
    (q.steps.map PlanStep.stage).Sublist [.s1, .s2, .s3a, .s3b, .s3c, .s4, .s5] := by
  obtain ⟨p, hmap, -, h5⟩ := plan_front h
  have hfront : (p.steps.map PlanStep.stage).Sublist [.s1, .s2, .s3a, .s3b, .s3c, .s4] := by
    simpa [← hmap, Function.comp_def] using stagesOneToFour_sublist s g.dst
  rcases planS5_steps h5 with ⟨-, -, hsteps⟩ | ⟨-, hsteps⟩ <;> rw [hsteps]
  · exact hfront.trans (by decide)
  · rw [List.map_append]
    exact hfront.append (.refl [Stage.s5])

theorem plan_stageIds_sublist {s : Desc} {g : PlanGoal} {q : Planner} (h : plan s g = .ok q) :
    (stageIds q.steps).Sublist [1, 2, 3, 4, 5, 6, 7] := by
  simpa [stageIds, Function.comp_def, Stage.id] using (plan_stages_sublist h).map fun st => st.id.toNat

/-- Settles O57: the stage ids are some of 1 to 7 in their order. -/
theorem planStagesIncrease : Obligations.PlanStagesIncrease := by
  intro s g q h
  have hsub := plan_stageIds_sublist h
  refine ⟨List.Pairwise.sublist hsub (by decide), fun k hk => ?_, ?_⟩
  · have := hsub.subset hk
    simp only [List.mem_cons, List.not_mem_nil, or_false] at this
    omega
  · simpa [stageIds] using hsub.length_le

end Sys2Proof.Machine
end

section
/-! PROOFS. When planning fails: every frame a plan asks for passes the layout checks and needs no more than a bound
that the request alone gives, so only a small scratch buffer or too few active bits stop it (43_orchestrator.md R174,
70_reset_and_hazards.md R214). -/

namespace Sys2Proof.Machine

/-! ### What the base format keeps -/

@[simp] theorem PixelFormat.base_base (f : PixelFormat) : f.base.base = f.base := by cases f <;> rfl

@[simp] theorem PixelFormat.base_isSupported (f : PixelFormat) : f.base.isSupported = f.isSupported := by
  cases f <;> rfl

@[simp] theorem PixelFormat.base_isMono (f : PixelFormat) : f.base.isMono = f.isMono := by cases f <;> rfl

@[simp] theorem PixelFormat.base_is420 (f : PixelFormat) : f.base.is420 = f.is420 := by cases f <;> rfl

theorem PixelFormat.isMono_iff {f : PixelFormat} : f.isMono = true ↔ f = .f400p := by
  cases f <;> decide

theorem PixelFormat.isMono_eq_iff {f f' : PixelFormat} : f.isMono = f'.isMono ↔ (f = .f400p ↔ f' = .f400p) := by
  rw [Bool.eq_iff_iff, isMono_iff, isMono_iff]

/-- The three kinds of supported formats, by their chroma planes. -/
theorem PixelFormat.chroma_cases {f : PixelFormat} (h : f.isSupported = true) :
    (f = .f400p ∨ f = .fuyvy ∨ f = .fyuyv) ∨ f.isSemiplanar = true ∨ f.isPlanar = true := by
  revert h
  cases f <;> decide

/-! ### The frames a plan asks for -/

/-- The bytes of a scratch buffer that are enough for every step: `4*w*h`, or the requested frame where that is larger
(70_reset_and_hazards.md R214). -/
def PlanGoal.scratchNeed (g : PlanGoal) : Nat := max (4 * g.dst.width * g.dst.height) g.dst.ioSize

/-- A request that passes the ten checks and whose frame `scratchNeed` bytes hold: its layout fails only with
`ALLOC`. -/
structure Request.Plannable (g : PlanGoal) (r : Request) : Prop where
  checks : layoutCheck r = none
  size : r.frameSize ≤ g.scratchNeed

/-- One row of all planes of a raster frame of whole-byte samples takes at most four bytes a pixel. -/
theorem Request.rasterRow_le {r : Request} (hc : layoutCheck r = none) (ht : r.tiled = false)
    (hn : r.nbit = 8 ∨ r.nbit = 16) (hreq : r.reqStride = 0) :
    r.lumaStride + r.fmt.chromaPlanes * r.chromaStride ≤ 4 * r.width := by
  obtain ⟨hsup, -, -, -, -, -, -, heven, -⟩ := layoutCheck_none hc
  have hbytes : ceilDiv (r.width * r.nbit) 8 = r.width * (r.nbit / 8) := by
    rcases hn with hn | hn <;> rw [hn, ceilDiv] <;> omega
  have hluma : r.lumaStride = if r.fmt = .fuyvy ∨ r.fmt = .fyuyv then 2 * (r.width * (r.nbit / 8))
      else r.width * (r.nbit / 8) := by
    rw [lumaStride, hreq, Nat.max_zero, naturalStride_of_raster ht, hbytes]
  have hsample : r.width * (r.nbit / 8) ≤ 2 * r.width := by
    rcases hn with hn | hn <;> rw [hn] <;> omega
  rcases PixelFormat.chroma_cases hsup with hf | hsp | hp
  · rw [chromaStride_of_noChroma hf, hluma, Nat.mul_zero]
    split <;> omega
  · rw [chromaStride_of_semiplanar hsp, PixelFormat.chromaPlanes_of_semiplanar hsp, hluma, if_neg]
    · omega
    · rintro (e | e) <;> rw [e] at hsp <;> cases hsp
  · have hmono := (PixelFormat.not_mono_packed_of_chromaPlanes
      (by rw [PixelFormat.chromaPlanes_of_planar hp]; exact two_pos)).1
    have hw := heven hmono
    rw [PixelFormat.chromaPlanes_of_planar hp, two_mul_chromaStride hp ht, hluma, if_neg]
    · rcases hn with hn | hn <;> rw [hn] <;> omega
    · rintro (e | e) <;> rw [e] at hp <;> cases hp

/-- A raster frame of whole-byte samples without stride or size request has at most four bytes a pixel
(70_reset_and_hazards.md R214). -/
theorem Request.frameSize_raster_le {r : Request} (hc : layoutCheck r = none) (ht : r.tiled = false)
    (hn : r.nbit = 8 ∨ r.nbit = 16) (hreq : r.reqStride = 0) (hio : r.reqIosize = 0) :
    r.frameSize ≤ 4 * r.width * r.height := by
  have hrows : r.chromaStorageRows ≤ r.height := by
    rw [chromaStorageRows_of_raster ht, chromaRows]
    split <;> omega
  calc r.frameSize
    _ = r.lumaStride * r.height + r.fmt.chromaPlanes * (r.chromaStride * r.chromaStorageRows) := by
      rw [frameSize, hio, Nat.max_zero, lumaSize, lumaRows_of_raster ht, chromaSize_eq]
    _ ≤ r.lumaStride * r.height + r.fmt.chromaPlanes * (r.chromaStride * r.height) := by gcongr
    _ = (r.lumaStride + r.fmt.chromaPlanes * r.chromaStride) * r.height := by ring
    _ ≤ 4 * r.width * r.height := Nat.mul_le_mul_right _ (rasterRow_le hc ht hn hreq)

/-- A request without its stride and size requests. -/
abbrev Request.withoutRequests (r : Request) : Request := { r with reqStride := 0, reqIosize := 0, bufSize := 0 }

/-- Dropping the stride and size requests makes no frame larger. -/
theorem Request.frameSize_withoutRequests_le (r : Request) : r.withoutRequests.frameSize ≤ r.frameSize := by
  have hluma : r.withoutRequests.lumaStride ≤ r.lumaStride := max_le_max le_rfl (Nat.zero_le _)
  have hchroma : r.withoutRequests.chromaStride ≤ r.chromaStride := by
    unfold chromaStride
    split
    · exact le_rfl
    · split
      · exact hluma
      · split
        · exact le_rfl
        · exact ceilDiv_mono hluma 2
  have hsize : r.withoutRequests.chromaSize ≤ r.chromaSize := by
    rw [chromaSize_eq, chromaSize_eq]
    exact Nat.mul_le_mul_right _ hchroma
  exact max_le_max (Nat.add_le_add (Nat.mul_le_mul_right _ hluma) (Nat.mul_le_mul_left _ hsize)) (Nat.zero_le _)

/-- The checks of an intermediate raster frame, from those of a laid-out frame of its dimensions and base format. -/
theorem layoutCheck_rasterRequest {d cur : Desc} (h : layout d.toRequest = .ok d.toDerived) (hw : cur.width = d.width)
    (hh : cur.height = d.height) {f : PixelFormat} (hf : f.base = d.fmt.base) {nbit nlsb : Nat}
    (hn : nbit = 8 ∨ nbit = 16) (hl : nlsb ≤ nbit) : layoutCheck (rasterRequest cur f nbit nlsb) = none := by
  obtain ⟨hsup, -, -, -, -, hw0, hh0, heven, heven', -⟩ := layoutCheck_none (layout_ok h).1
  rw [← PixelFormat.base_isSupported, ← hf, PixelFormat.base_isSupported] at hsup
  rw [← PixelFormat.base_isMono, ← hf, PixelFormat.base_isMono] at heven
  rw [← PixelFormat.base_is420, ← hf, PixelFormat.base_is420] at heven'
  refine layoutCheck_of_legal ?_ ?_
  · simp only [Request.Unsupported, rasterRequest, hsup, Bool.not_true, Bool.false_eq_true, false_and, or_false,
      false_or]
    omega
  · simp only [Request.BadGeometry, rasterRequest, Bool.not_eq_true', Bool.false_eq_true, false_and, or_false, hw, hh]
    rintro ((h0 | h0) | ⟨hm, hodd⟩ | ⟨h420, hodd⟩)
    · exact hw0 h0
    · exact hh0 h0
    · have := heven hm
      omega
    · have := heven' h420
      omega

/-- The re-tiled or re-packed frame of stage 4 is the requested one without its stride and size requests. -/
theorem tiledRequest_eq {cur d : Desc} (hw : cur.width = d.width) (hh : cur.height = d.height) :
    tiledRequest cur d d.nbit d.tiled = d.toRequest.withoutRequests := by
  simp only [tiledRequest, hw, hh]

section
variable {g : PlanGoal} {src : Desc} {p q : Planner}

theorem PlanInput.plannable_raster (hin : PlanInput g src) (hp : PlanChain g src p.steps p.cur) {f : PixelFormat}
    (hf : f.base = src.fmt.base ∨ f.base = g.dst.fmt.base) {nbit nlsb : Nat} (hn : nbit = 8 ∨ nbit = 16)
    (hl : nlsb ≤ nbit) : (rasterRequest p.cur f nbit nlsb).Plannable g := by
  obtain ⟨hw, hh⟩ := hp.dims
  have hw' := hw.trans hin.pair.width
  have hh' := hh.trans hin.pair.height
  have hc : layoutCheck (rasterRequest p.cur f nbit nlsb) = none := by
    rcases hf with hf | hf
    · exact layoutCheck_rasterRequest hin.pair.src hw hh hf hn hl
    · exact layoutCheck_rasterRequest hin.pair.dst hw' hh' hf hn hl
  refine ⟨hc, (Request.frameSize_raster_le hc rfl hn rfl rfl).trans ?_⟩
  simp only [rasterRequest, hw', hh']
  exact Nat.le_max_left _ _

/-- The intermediate frames of stage 3 keep the depth and active bits of the working one. -/
theorem PlanInput.plannable_working (hin : PlanInput g src) (hp : PlanChain g src p.steps p.cur)
    (hwork : p.cur.Working g) {f : PixelFormat} (hf : f.base = src.fmt.base ∨ f.base = g.dst.fmt.base) :
    (rasterRequest p.cur f p.cur.nbit p.cur.nlsb).Plannable g := by
  obtain ⟨-, -, hl, -⟩ := layoutCheck_none (layout_ok (hp.layout hin.pair.src)).1
  exact hin.plannable_raster hp hf (Desc.rmOk_iff.mp hwork.rmOk).1 hl

theorem PlanInput.plannable_relayout (hin : PlanInput g src) : g.dst.toRequest.Plannable g :=
  ⟨(layout_ok hin.pair.dst).1, (Desc.ioSize_of_layout hin.pair.dst).symm.trans_le (Nat.le_max_right _ _)⟩

theorem PlanInput.plannable_retiled (hin : PlanInput g src) (hp : PlanChain g src p.steps p.cur) :
    (tiledRequest p.cur g.dst g.dst.nbit g.dst.tiled).Plannable g := by
  obtain ⟨hw, hh⟩ := hp.dims
  rw [tiledRequest_eq (hw.trans hin.pair.width) (hh.trans hin.pair.height)]
  exact ⟨hin.plannable_relayout.checks,
    (Request.frameSize_withoutRequests_le _).trans hin.plannable_relayout.size⟩

/-! ### Why planning fails -/

/-- Why planning can fail: a scratch buffer below the bound, or fewer than 8 active bits to narrow from or widen to
(43_orchestrator.md R173, R174). -/
inductive PlanFailure (g : PlanGoal) (src : Desc) : ErrCode × Stage → Prop
  | alloc {st : Stage} (hst : st ≠ .none) {k : Nat} (hcap : g.capacityAt k < g.scratchNeed) :
      PlanFailure g src (.alloc, st)
  | narrow (hs : src.nbit = 16) (hd : g.dst.nbit = 8) (hbits : src.eab < 8) : PlanFailure g src (.unsup, .s2)
  | widen (hs : src.nbit = 8) (hd : g.dst.nbit = 16) (hbits : g.dst.eab < 8) : PlanFailure g src (.unsup, .s2)

theorem PlanFailure.of_addStep {st : Stage} {op : Prim} {r : Request} {e : ErrCode × Stage}
    (h : p.addStep g st op r = .error e) (hr : r.Plannable g) (hst : st ≠ .none) : PlanFailure g src e := by
  obtain ⟨hl, hstage⟩ := addStep_error h
  have hc : layoutCheck { r with bufSize := p.capacity g } = none := hr.checks
  by_cases hcap : p.capacity g < r.frameSize
  · rw [layout_of_overflow hc hcap, Except.error.injEq] at hl
    obtain ⟨c, st'⟩ := e
    obtain rfl : .alloc = c := hl
    obtain rfl : st' = st := hstage
    exact .alloc hst (p.capacity_eq g ▸ hcap.trans_le hr.size)
  · rw [layout_of_checks hc (Nat.le_of_not_lt hcap)] at hl
    cases hl

theorem PlanResult.bind_error {x : PlanResult} {f : Planner → PlanResult} {e : ErrCode × Stage}
    (h : x.bind f = .error e) : x = .error e ∨ ∃ p, x = .ok p ∧ f p = .error e := by
  cases x with
  | error e' => exact .inl h
  | ok p => exact .inr ⟨p, rfl, h⟩

theorem Desc.rasterDepth_of_ne_ten {d : Desc} (h : d.nbit ≠ 10) : d.rasterDepth = d.nbit := if_neg h

theorem Desc.nbit_of_rasterDepth {d : Desc} (h : d.rasterDepth = 8) : d.nbit = 8 := by
  unfold rasterDepth at h
  split at h
  · cases h
  · exact h

/-- Fewer than 8 active bits after stage 1 are the frame's own: a compact 10-bit frame has 10. -/
theorem Desc.of_rasterEab_lt {d : Desc} (h : d.rasterEab < 8) : d.nbit ≠ 10 ∧ d.eab < 8 := by
  unfold rasterEab at h
  split at h
  · omega
  · exact ⟨‹_›, h⟩

theorem PlanInput.workNlsb_le (hin : PlanInput g src) : g.workNlsb ≤ 16 := by
  obtain ⟨-, hn, hl, -⟩ := layoutCheck_none (layout_ok hin.pair.dst).1
  unfold PlanGoal.workNlsb
  split_ifs <;> omega

variable (hin : PlanInput g src) (hp : PlanChain g src p.steps p.cur) {e : ErrCode × Stage}
include hin hp

theorem planS1_fails (hfmt : p.cur.fmt = src.fmt) (h : planS1 g p = .error e) : PlanFailure g src e := by
  have hbase : p.cur.fmt.base = src.fmt.base := by rw [hfmt]
  unfold planS1 at h
  split at h
  · exact .of_addStep h (hin.plannable_raster hp (.inl hbase) (.inr rfl) (by decide)) nofun
  · split at h
    · exact .of_addStep h (hin.plannable_raster hp (.inl hbase) (.inl rfl) (by decide)) nofun
    · cases h

theorem planS2_fails (hfmt : p.cur.fmt = src.fmt) (hdepth : p.cur.nbit = src.rasterDepth)
    (heab : p.cur.nbit = 16 → p.cur.eab = src.rasterEab) (h : planS2 g p = .error e) : PlanFailure g src e := by
  have hbase : p.cur.fmt.base = src.fmt.base := by rw [hfmt]
  have hgoal := g.workDepth_eq
  have hdst := Desc.nbit_of_layout hin.pair.dst
  unfold planS2 at h
  split at h
  · rename_i hd
    split at h
    · rename_i hbits
      cases h
      obtain ⟨hn, hbits⟩ := Desc.of_rasterEab_lt (heab hd.1 ▸ hbits)
      rw [Desc.rasterDepth_of_ne_ten hn] at hdepth
      exact .narrow (hdepth ▸ hd.1) (by omega) hbits
    · exact .of_addStep h (hin.plannable_raster hp (.inl hbase) (.inl rfl) (by decide)) nofun
  · split at h
    · rename_i hd
      split at h
      · rename_i hbits
        cases h
        have h8 : g.dst.nbit ≠ 8 := by omega
        obtain ⟨hn, hbits⟩ := Desc.of_rasterEab_lt (PlanGoal.workEab_eq h8 ▸ hbits)
        exact .widen (Desc.nbit_of_rasterDepth (hdepth ▸ hd.1)) (by omega) hbits
      · exact .of_addStep h (hin.plannable_raster hp (.inl hbase) (.inr rfl) hin.workNlsb_le) nofun
    · split at h
      · exact .of_addStep h (hin.plannable_raster hp (.inl hbase) (.inr rfl) hin.workNlsb_le) nofun
      · cases h

variable (hwork : p.cur.Working g)
include hwork

theorem planS3a_fails (hfmt : p.cur.fmt = src.fmt) (h : planS3a g p = .error e) : PlanFailure g src e := by
  unfold planS3a at h
  split at h
  · exact .of_addStep h (hin.plannable_working hp hwork (.inl (by rw [PixelFormat.base_base, hfmt]))) nofun
  · cases h

theorem planS3b_fails (h : planS3b g p = .error e) : PlanFailure g src e := by
  unfold planS3b at h
  split at h
  · exact .of_addStep h (hin.plannable_working hp hwork (.inr (PixelFormat.base_base _))) nofun
  · cases h

theorem planS3c_fails (h : planS3c g p = .error e) : PlanFailure g src e := by
  unfold planS3c at h
  split at h
  · exact .of_addStep h (hin.plannable_working hp hwork (.inr rfl)) nofun
  · cases h

theorem planS3_fails (hfmt : p.cur.fmt = src.fmt) (h : planS3 g p = .error e) : PlanFailure g src e := by
  unfold planS3 at h
  split at h
  · rename_i hne
    rcases PlanResult.bind_error h with h | ⟨p₂, h, hc⟩
    · rcases PlanResult.bind_error h with ha | ⟨p₁, ha, hb⟩
      · exact planS3a_fails hin hp hwork hfmt ha
      · obtain ⟨hp₁, -, hwork₁⟩ := planS3a_chain hin hp hwork hne ha
        exact planS3b_fails hin hp₁ hwork₁ hb
    · obtain ⟨p₁, ha, hb⟩ := PlanResult.bind_ok h
      obtain ⟨hp₁, hfmt₁, hwork₁⟩ := planS3a_chain hin hp hwork hne ha
      obtain ⟨hp₂, -, hwork₂⟩ := planS3b_chain hin hp₁ hwork₁ (hfmt ▸ hfmt₁) hb
      exact planS3c_fails hin hp₂ hwork₂ hc
  · cases h

omit hwork

theorem planS4_fails (h : planS4 g p = .error e) : PlanFailure g src e := by
  have hr := hin.plannable_retiled hp
  unfold planS4 at h
  split at h
  · rename_i h10
    rw [h10] at hr
    exact .of_addStep h hr nofun
  · split at h
    · rename_i h8
      rw [h8.1, h8.2] at hr
      exact .of_addStep h hr nofun
    · cases h

omit hp

theorem planS5_fails (h : planS5 g p = .error e) : PlanFailure g src e := by
  unfold planS5 at h
  split at h
  · exact .of_addStep h hin.plannable_relayout nofun
  · cases h

theorem planStages_fails (h : planStages g { steps := [], cur := src } = .error e) : PlanFailure g src e := by
  have hp₀ : PlanChain g src [] src := .nil
  rcases PlanResult.bind_error h with h | ⟨p₃, h, h4⟩
  · rcases PlanResult.bind_error h with h | ⟨p₂, h, h3⟩
    · rcases PlanResult.bind_error h with h1 | ⟨p₁, h1, h2⟩
      · exact planS1_fails hin hp₀ rfl h1
      · obtain ⟨hp₁, hfmt₁, -, -⟩ := planS1_chain hin hp₀ h1
        obtain ⟨-, -, hdepth, heab⟩ := planS1_appends h1
        exact planS2_fails hin hp₁ hfmt₁ hdepth heab h2
    · obtain ⟨p₁, h1, h2⟩ := PlanResult.bind_ok h
      obtain ⟨hp₁, hfmt₁, ht, hn⟩ := planS1_chain hin hp₀ h1
      obtain ⟨hp₂, hfmt₂, hwork₂⟩ := planS2_chain hin hp₁ ht hn h2
      exact planS3_fails hin hp₂ hwork₂ (hfmt₂.trans hfmt₁) h3
  · obtain ⟨p₂, h, h3⟩ := PlanResult.bind_ok h
    obtain ⟨p₁, h1, h2⟩ := PlanResult.bind_ok h
    obtain ⟨hp₁, hfmt₁, ht, hn⟩ := planS1_chain hin hp₀ h1
    obtain ⟨hp₂, hfmt₂, hwork₂⟩ := planS2_chain hin hp₁ ht hn h2
    exact planS4_fails hin (planS3_chain hin hp₂ hwork₂ (hfmt₂.trans hfmt₁) h3).1 h4

/-- Inversion of a planning error (43_orchestrator.md R174). -/
theorem plan_fails (h : plan src g = .error e) : PlanFailure g src e := by
  rcases PlanResult.bind_error h with h | ⟨p, -, h5⟩
  · split at h
    · exact planStages_fails hin h
    · cases h
  · exact planS5_fails hin h5

end

/-- Settles O58: the two kinds of planning error. -/
theorem planErrorKinds : Obligations.PlanErrorKinds := by
  intro s g c st hs hd hw hh hmono h
  have hfail := plan_fails ⟨⟨hs, hd, hw, hh⟩, PixelFormat.isMono_eq_iff.mpr hmono⟩ h
  cases hfail with
  | alloc hst => exact .inl ⟨rfl, hst⟩
  | narrow => exact .inr ⟨rfl, rfl⟩
  | widen => exact .inr ⟨rfl, rfl⟩

end Sys2Proof.Machine
end

section
/-! PROOFS. The checks of `CONVERT` in their order, the empty plan, and when it completes (43_orchestrator.md R175,
R181, 60_exceptions.md R199, 70_reset_and_hazards.md R214). -/

namespace Sys2Proof.Machine

/-! ### The regions a conversion uses -/

theorem State.convertRegions_one (s : State) : s.convertRegions 1 = [s.bankS.region, s.scr0] := rfl

theorem State.convertRegions_of_two_le (s : State) {n : Nat} (h : 2 ≤ n) :
    s.convertRegions n = [s.bankS.region, s.scr0, s.scr1] := by
  rw [convertRegions, if_neg (by omega), if_neg (by omega)]

/-- Every conversion with a step uses the source frame and scratch buffer 0. -/
theorem State.mem_convertRegions (s : State) {n : Nat} (hn : n ≠ 0) :
    s.bankS.region ∈ s.convertRegions n ∧ s.scr0 ∈ s.convertRegions n := by
  rcases (show n = 1 ∨ 2 ≤ n by omega) with rfl | h2
  · simp [convertRegions_one]
  · simp [convertRegions_of_two_le s h2]

/-- A region a conversion of `n` steps uses ends past memory. -/
theorem State.convertRegions_pastMemory_iff (s : State) {n : Nat} (hn : n ≠ 0) :
    (s.convertRegions n).any (fun r => !r.inMemory) = true ↔
      4294967296 < s.bankS.desc.base + s.bankS.desc.ioSize ∨ 4294967296 < s.scr0.base + s.scr0.size ∨
        (2 ≤ n ∧ 4294967296 < s.scr1.base + s.scr1.size) := by
  have hpast (r : Region) : (!r.inMemory) = true ↔ 4294967296 < r.base + r.size := by
    rw [Bool.not_eq_true', ← Bool.not_eq_true, Region.inMemory_iff, Nat.not_le, Config.memSize]
  change _ ↔ 4294967296 < s.bankS.region.base + s.bankS.region.size ∨ _
  rcases (show n = 1 ∨ 2 ≤ n by omega) with rfl | h2
  · simp [convertRegions_one, hpast]
  · simp [convertRegions_of_two_le s h2, hpast, h2]

/-- Two regions a conversion of `n` steps uses overlap. -/
theorem State.convertRegions_overlap_iff (s : State) {n : Nat} (hn : n ≠ 0) :
    anyOverlap (s.convertRegions n) = true ↔ s.bankS.region.overlaps s.scr0 = true ∨
      (2 ≤ n ∧ (s.bankS.region.overlaps s.scr1 = true ∨ s.scr0.overlaps s.scr1 = true)) := by
  rcases (show n = 1 ∨ 2 ≤ n by omega) with rfl | h2
  · simp [convertRegions_one, anyOverlap]
  · simp [convertRegions_of_two_le s h2, anyOverlap, h2, or_assoc]

/-! ### Phase 1, check by check -/

theorem convertPlan_of_invalid {s : State} (h : ¬(s.bankS.valid = true ∧ s.bankD.valid = true)) :
    convertPlan s = .error (.nolayout, .none) := by
  rw [← Bool.and_eq_true, Bool.not_eq_true] at h
  simp only [convertPlan, h, Bool.not_false, if_true]

section
variable {s : State} (hS : s.bankS.valid = true) (hD : s.bankD.valid = true)
include hS hD

theorem convertPlan_of_mono (h : s.bankS.desc.fmt.isMono ≠ s.bankD.desc.fmt.isMono) :
    convertPlan s = .error (.unsup, .none) := by
  simp only [convertPlan, hS, hD, bne_iff_ne.mpr h, Bool.and_self, Bool.not_true, Bool.false_eq_true, if_false, if_true]

variable (hmono : s.bankS.desc.fmt.isMono = s.bankD.desc.fmt.isMono)
include hmono

theorem convertPlan_of_shape
    (h : s.bankS.desc.width ≠ s.bankD.desc.width ∨ s.bankS.desc.height ≠ s.bankD.desc.height) :
    convertPlan s = .error (.shape, .none) := by
  simp only [convertPlan, hS, hD, hmono, bne_self_eq_false, Bool.and_self, Bool.not_true, Bool.false_eq_true, if_false,
    if_pos h]

variable (hw : s.bankS.desc.width = s.bankD.desc.width) (hh : s.bankS.desc.height = s.bankD.desc.height)
include hw hh

theorem convertPlan_of_plan_error {e : ErrCode × Stage} (h : plan s.bankS.desc s.planGoal = .error e) :
    convertPlan s = .error e := by
  rw [State.planGoal] at h
  simp only [convertPlan, hS, hD, hmono, hw, hh, h, bne_self_eq_false, Bool.and_self, Bool.not_true,
    Bool.false_eq_true, if_false, ne_eq, not_true_eq_false, or_self]

theorem convertPlan_of_plan {p : Planner} (h : plan s.bankS.desc s.planGoal = .ok p) :
    convertPlan s =
      if (s.convertRegions p.steps.length).any (fun r => !r.inMemory) then .error (.alloc, .none)
      else if anyOverlap (s.convertRegions p.steps.length) then .error (.overlap, .none)
      else .ok p.steps := by
  rw [State.planGoal] at h
  simp only [convertPlan, hS, hD, hmono, hw, hh, h, bne_self_eq_false, Bool.and_self, Bool.not_true,
    Bool.false_eq_true, if_false, ne_eq, not_true_eq_false, or_self]

end

/-- The error of phase 1 is the command's. -/
theorem exec_convert_of_error {s : State} {c : ErrCode} {g : Stage} (h : convertPlan s = .error (c, g)) :
    exec .convert s = .next (s.failedWith c.code g.id) := by
  rcases execConvert_cases s with ⟨c', g', hp, e⟩ | ⟨steps, hp, -⟩ | ⟨steps, hp, -⟩
  · cases h.symm.trans hp
    exact e
  all_goals cases h.symm.trans hp

/-- Settles O55: the order is that of phase 1, and a failed check ends in error entry. -/
theorem convertCheckOrder : Obligations.ConvertCheckOrder := by
  rintro s S D rfl rfl
  refine ⟨fun hv => exec_convert_of_error (convertPlan_of_invalid hv), fun hS hD => ⟨fun hm => ?_, fun hm => ?_⟩⟩ <;>
    rw [← PixelFormat.isMono_eq_iff] at hm
  · exact exec_convert_of_error (convertPlan_of_mono hS hD hm)
  refine ⟨fun hshape => exec_convert_of_error (convertPlan_of_shape hS hD hm hshape), fun hw hh =>
    ⟨fun c g hp => exec_convert_of_error (convertPlan_of_plan_error hS hD hm hw hh hp), fun p hp hne => ?_⟩⟩
  have hplan := convertPlan_of_plan hS hD hm hw hh hp
  have hlen : p.steps.length ≠ 0 := mt List.length_eq_zero_iff.mp hne
  rw [← State.convertRegions_pastMemory_iff s hlen, ← State.convertRegions_overlap_iff s hlen]
  refine ⟨fun hpast => ?_, fun hmem hover => ?_⟩
  · rw [if_pos hpast] at hplan
    exact exec_convert_of_error hplan
  · rw [if_neg hmem, if_pos hover] at hplan
    exact exec_convert_of_error hplan

/-! ### Phases 2 and 3 -/

/-- A conversion with a step has checked that the source frame lies in memory. -/
theorem convertPlan_source_inMemory {s : State} (hs : s.OperandsSound) {steps : List PlanStep}
    (h : convertPlan s = .ok steps) : steps.length = 0 ∨ s.bankS.desc.inMemory = true := by
  obtain ⟨hS, -, -, -, -, hmem, -⟩ := convertPlan_ok h
  refine or_iff_not_imp_left.mpr fun hn => ?_
  have hin := hmem _ (s.mem_convertRegions hn).1
  exact Desc.inMemory_of_region (Bank.sound_layout hs.1 hS) (Region.inMemory_iff.mp hin)

/-- A conversion that passes phase 1 completes with the result of its steps. -/
theorem exec_convert_of_plan {s : State} (hs : s.OperandsSound) {steps : List PlanStep}
    (h : convertPlan s = .ok steps) :
    exec .convert s = .next (State.complete (s.convertResult steps (runSteps s 0 s.bankS.desc steps s.mem))) := by
  rcases execConvert_cases s with ⟨c, g, hp, -⟩ | ⟨steps', hp, -, e⟩ | ⟨steps', hp, hm, -⟩
  · cases h.symm.trans hp
  · cases h.symm.trans hp
    exact e
  · cases h.symm.trans hp
    exact absurd (convertPlan_source_inMemory hs h) hm

/-- Descriptors that agree in everything stages 1 to 5 look at have the empty plan (43_orchestrator.md R181). -/
theorem plan_of_agreement {s : Desc} {g : PlanGoal}
    (h : s.fmt = g.dst.fmt ∧ s.nbit = g.dst.nbit ∧ (s.nbit = 16 → s.eab = g.dst.eab) ∧ s.tiled = g.dst.tiled)
    (hy : s.yStride = g.dst.yStride) (hio : s.ioSize = g.dst.ioSize) : plan s g = .ok { steps := [], cur := s } := by
  have hneed : ¬planNeed s g.dst = true := mt planNeed_iff.mp (not_not.mpr h)
  rw [plan, if_neg hneed]
  change planS5 g { steps := [], cur := s } = _
  rw [planS5, if_neg (not_or.mpr ⟨not_not.mpr hy, not_not.mpr hio⟩)]

/-- Settles O54: the plan is empty, so phase 1 checks no region and phase 2 does nothing. -/
theorem convertIdentity : Obligations.ConvertIdentity := by
  rintro s S D rfl rfl hf hn heab ht hy hio
  have hplan : plan s.bankS.desc s.planGoal = .ok { steps := [], cur := s.bankS.desc } :=
    plan_of_agreement ⟨hf, hn, heab, ht⟩ hy hio
  refine ⟨⟨_, hplan, rfl⟩, fun hS hD hw hh => ?_⟩
  have hphase1 : convertPlan s = .ok [] := convertPlan_of_plan hS hD (congrArg PixelFormat.isMono hf) hw hh hplan
  change execConvert s = _
  rw [execConvert, hphase1]
  rfl

/-- Settles O53: a plan fails only for the reasons the premises exclude, and then no check is left to fail. -/
theorem convertCompletes : Obligations.ConvertCompletes := by
  rintro s S D rfl rfl hs hS hD hmono hw hh hnarrow hwiden h0 h1 hd0 hd1 hmS hm0 hm1 hover
  rw [← PixelFormat.isMono_eq_iff] at hmono
  have hneed (k : Nat) : s.planGoal.scratchNeed ≤ s.planGoal.capacityAt k := by
    rw [hw, hh] at h0 h1
    unfold PlanGoal.capacityAt
    split
    · exact max_le h0 hd0
    · exact max_le h1 hd1
  obtain ⟨p, hp⟩ : ∃ p, plan s.bankS.desc s.planGoal = .ok p := by
    rcases hp : plan s.bankS.desc s.planGoal with e | p
    · exfalso
      cases plan_fails ⟨State.framePair hs hS hD hw hh, hmono⟩ hp with
      | alloc _ hcap => exact absurd (hneed _) (Nat.not_le.mpr hcap)
      | narrow hn hn' hbits => exact absurd (Desc.eight_le_eab_iff.mpr (hnarrow hn hn')) (Nat.not_le.mpr hbits)
      | widen hn hn' hbits => exact absurd (Desc.eight_le_eab_iff.mpr (hwiden hn hn')) (Nat.not_le.mpr hbits)
    · exact ⟨p, rfl⟩
  have hphase1 : convertPlan s = .ok p.steps := by
    rw [convertPlan_of_plan hS hD hmono hw hh hp]
    by_cases hlen : p.steps.length = 0
    · rw [hlen]
      rfl
    · rw [if_neg, if_neg]
      · rw [State.convertRegions_overlap_iff s hlen]
        simp only [anyOverlap, List.any_cons, List.any_nil, Bool.or_false, Bool.or_eq_false_iff] at hover
        simp [hover]
      · rw [State.convertRegions_pastMemory_iff s hlen]
        omega
  refine ⟨_, exec_convert_of_plan hs hphase1, rfl, rfl, rfl, ?_⟩
  rw [State.complete_bankW, State.convertResult_bankW]
  split
  · exact hS
  · rfl

end Sys2Proof.Machine
end

section
/-! PROOFS. What a completed `CONVERT` leaves: each step is its primitive's command, and the last descriptor is the
requested one in the scratch buffer last written (43_orchestrator.md R175 to R180). -/

namespace Sys2Proof.Machine

/-! ### Descriptors in a bank -/

theorem Bank.ofDesc_desc {d : Desc} (h : d.Laid) (hb : d.base < 2 ^ 32) : (Bank.ofDesc d).desc = d := by
  have hbase : (Bank.ofDesc d).base.toNat = d.base := Nat.mod_eq_of_lt hb
  rw [Bank.desc, Bank.ofDesc_request h, Bank.ofDesc_derived h, hbase]

/-- The base of the scratch buffer step `k` writes, as a register. -/
theorem State.scratchBase_eq (s : State) (k : Nat) :
    s.scratchBase k = (if k % 2 = 0 then s.scr0Base else s.scr1Base).toNat :=
  (apply_ite BitVec.toNat _ _ _).symm

theorem State.scratchBase_lt (s : State) (k : Nat) : s.scratchBase k < 2 ^ 32 := by
  rw [scratchBase_eq]
  exact BitVec.isLt _

/-- The capacity of the scratch buffer step `k` writes, as a register. -/
theorem State.capacityAt_eq (s : State) (k : Nat) :
    s.planGoal.capacityAt k = (if k % 2 = 0 then s.scr0Cap else s.scr1Cap).toNat :=
  (apply_ite BitVec.toNat _ _ _).symm

/-- The output descriptor of step `k`, in the scratch buffer of its turn. -/
abbrev PlanStep.placed (x : PlanStep) (s : State) (k : Nat) : Desc := { x.next with base := s.scratchBase k }

theorem PlanStep.placed_desc {x : PlanStep} (h : x.next.Laid) (s : State) (k : Nat) :
    (Bank.ofDesc (x.placed s k)).desc = x.placed s k :=
  Bank.ofDesc_desc (h.setBase _) (s.scratchBase_lt k)

/-! ### One step of a conversion -/

/-- Running one step more: its body, from the working descriptor into the scratch buffer of its turn. -/
theorem runSteps_snoc (s : State) (src : Desc) (pre : List PlanStep) (x : PlanStep) (m : Memory) :
    runSteps s 0 src (pre ++ [x]) m =
      (x.prim.primitive.body (runSteps s 0 src pre m).2 (x.placed s pre.length) (runSteps s 0 src pre m).1,
        x.placed s pre.length) := by
  rw [runSteps_append, Nat.zero_add]
  rfl

theorem PlanChain.of_snoc {g : PlanGoal} {src d : Desc} {pre : List PlanStep} {x : PlanStep}
    (h : PlanChain g src (pre ++ [x]) d) :
    ∃ cur, PlanChain g src pre cur ∧ x.Follows cur ∧ x.next.bufSize = g.capacityAt pre.length ∧ d = x.next := by
  generalize hl : pre ++ [x] = l at h
  cases h with
  | nil => simp at hl
  | snoc h hx hcap =>
    obtain ⟨rfl, hxy⟩ := List.append_inj' hl rfl
    obtain rfl := List.singleton_inj.mp hxy
    exact ⟨_, h, hx, hcap, rfl⟩

/-- The steps before and including a step of a chain are a chain. -/
theorem PlanChain.of_append {g : PlanGoal} {src d : Desc} {l l' : List PlanStep} (h : PlanChain g src (l ++ l') d) :
    ∃ cur, PlanChain g src l cur := by
  induction l' using List.reverseRecOn generalizing d with
  | nil => exact ⟨d, List.append_nil l ▸ h⟩
  | append_singleton init x ih =>
    rw [← List.append_assoc] at h
    obtain ⟨cur, hinit, -⟩ := h.of_snoc
    exact ih hinit

/-- A step of a conversion, from the working descriptor the steps before it reach. -/
theorem convertPlan_step {s : State} (hs : s.OperandsSound) {pre post : List PlanStep} {x : PlanStep}
    (h : convertPlan s = .ok (pre ++ x :: post)) (m : Memory) :
    x.Follows (runSteps s 0 s.bankS.desc pre m).2 ∧ x.next.bufSize = s.planGoal.capacityAt pre.length := by
  obtain ⟨d, hchain⟩ := convertPlan_chain hs h
  rw [List.append_cons] at hchain
  obtain ⟨d', hchain⟩ := hchain.of_append
  obtain ⟨cur, hpre, hx, hcap, -⟩ := hchain.of_snoc
  obtain ⟨⟨a, hcur⟩, -⟩ := hpre.runSteps_read m
  rw [hcur]
  exact ⟨⟨hx.pair.setBase a x.next.base, (x.prim.admissible_setBase cur x.next a x.next.base).trans hx.admissible,
    hx.depth⟩, hcap⟩

/-! ### The buffers of a step -/

/-- The buffer step `k` reads: the source's, then the scratch buffer of the step before (43_orchestrator.md R177). -/
def State.stepSource (s : State) (k : Nat) : Region := if k = 0 then s.bankS.region else s.scratch (k - 1)

/-- Region `p` lies in region `q`. -/
abbrev Region.Within (p q : Region) : Prop := q.base ≤ p.base ∧ p.base + p.size ≤ q.base + q.size

theorem Region.Within.inMemory {p q : Region} (h : p.Within q) (hq : q.inMemory = true) : p.inMemory = true :=
  Region.inMemory_iff.mpr (h.2.trans (Region.inMemory_iff.mp hq))

theorem Region.Within.apart {p q p' q' : Region} (hp : p.Within p') (hq : q.Within q') (h : p'.overlaps q' = false) :
    p.overlaps q = false := by
  rw [← Bool.not_eq_true, Region.overlaps_iff] at h ⊢
  omega

theorem Region.overlaps_comm (p q : Region) : p.overlaps q = q.overlaps p := Bool.and_comm _ _

/-- The buffer a step reads and the one it writes lie in memory and are apart (43_orchestrator.md R175). -/
theorem convertPlan_buffers {s : State} {steps : List PlanStep} (h : convertPlan s = .ok steps) {k : Nat}
    (hk : k < steps.length) :
    (s.stepSource k).inMemory = true ∧ (s.scratch k).inMemory = true ∧
      (s.stepSource k).overlaps (s.scratch k) = false := by
  have hapart := convertPlan_scratch_apart h hk
  obtain ⟨-, -, -, -, -, hmem, hover, -⟩ := convertPlan_ok h
  unfold State.stepSource
  split
  · rename_i hk0
    subst hk0
    obtain ⟨hS, h0⟩ := s.mem_convertRegions (Nat.ne_of_gt hk)
    exact ⟨hmem _ hS, hmem _ h0, hapart⟩
  · rename_i hk0
    rw [State.convertRegions_of_two_le s (by omega)] at hmem hover
    simp only [anyOverlap, List.any_cons, List.any_nil, Bool.or_false, Bool.or_eq_false_iff] at hover
    have h0 : s.scr0.inMemory = true := hmem _ (by simp)
    have h1 : s.scr1.inMemory = true := hmem _ (by simp)
    unfold State.scratch
    rcases Nat.mod_two_eq_zero_or_one k with hk2 | hk2
    · rw [if_neg (by omega), if_pos hk2, Region.overlaps_comm]
      exact ⟨h1, h0, hover.2⟩
    · rw [if_pos (by omega), if_neg (by omega)]
      exact ⟨h0, h1, hover.2⟩

/-- A laid-out frame placed in a scratch buffer of its capacity lies in that buffer. -/
theorem PlanStep.placed_within {x : PlanStep} {s : State} {k : Nat} (h : layout x.next.toRequest = .ok x.next.toDerived)
    (hcap : x.next.bufSize = s.planGoal.capacityAt k) : (x.placed s k).region.Within (s.scratch k) := by
  have hsize := Desc.ioSize_le_bufSize h
  rw [hcap] at hsize
  rw [State.scratch_eq]
  exact ⟨le_rfl, Nat.add_le_add_left hsize _⟩

/-- The working descriptor's frame lies in the buffer the step reads. -/
theorem convertPlan_source_within {s : State} (hs : s.OperandsSound) {pre post : List PlanStep} {x : PlanStep}
    (h : convertPlan s = .ok (pre ++ x :: post)) (m : Memory) :
    (runSteps s 0 s.bankS.desc pre m).2.region.Within (s.stepSource pre.length) := by
  rcases List.eq_nil_or_concat pre with rfl | ⟨before, y, rfl⟩
  · exact ⟨le_rfl, le_rfl⟩
  · rw [List.concat_eq_append] at h ⊢
    rw [List.append_assoc] at h
    obtain ⟨hy, hcap⟩ := convertPlan_step hs h m
    rw [runSteps_snoc, List.length_append, List.length_singleton, State.stepSource, if_neg (Nat.succ_ne_zero _)]
    exact PlanStep.placed_within hy.pair.dst hcap

/-- A primitive command whose checks pass on frames inside memory completes (41_codec.md R120). -/
theorem exec_prim_of_checked {p : Prim} {s : State} (hS : s.bankS.valid = true) (hD : s.bankD.valid = true)
    (hc : checkPrimitive p.primitive s.bankS.desc s.bankD.desc = none) (hmS : s.bankS.desc.inMemory = true)
    (hmD : s.bankD.desc.inMemory = true) :
    exec p.instr s = .next (s.doneWith (p.primitive.body s.bankS.desc s.bankD.desc s.mem)) := by
  rw [exec_prim]
  rcases runPrimitive_cases p.primitive s with ⟨hv, -⟩ | ⟨c, -, -, hc', -⟩ | ⟨-, -, -, -, -, e⟩ | ⟨-, -, -, hm, -⟩
  · exact absurd ⟨hS, hD⟩ hv
  · cases hc.symm.trans hc'
  · exact e
  · exact absurd ⟨hmS, hmD⟩ hm

/-- A step of a conversion is its primitive command on the working descriptor and the step's output (43_orchestrator.md
R176): every check of R121 passes, and the command leaves the conversion's memory. -/
theorem convertPlan_step_exec {s u : State} (hs : s.OperandsSound) {pre post : List PlanStep} {x : PlanStep}
    (h : convertPlan s = .ok (pre ++ x :: post)) (hS : u.bankS.valid = true) (hD : u.bankD.valid = true)
    (hcur : u.bankS.desc = (runSteps s 0 s.bankS.desc pre s.mem).2) (hnext : u.bankD.desc = x.placed s pre.length)
    (hmem : u.mem = (runSteps s 0 s.bankS.desc pre s.mem).1) :
    exec x.prim.instr u = .next (u.doneWith (runSteps s 0 s.bankS.desc (pre ++ [x]) s.mem).1) := by
  obtain ⟨hx, hcap⟩ := convertPlan_step hs h s.mem
  have hsource := convertPlan_source_within hs h s.mem
  have hdest := PlanStep.placed_within hx.pair.dst hcap
  obtain ⟨hmS, hmD, hapart⟩ := convertPlan_buffers h (k := pre.length) (by simp)
  rw [runSteps_snoc, ← hcur, ← hnext, ← hmem]
  rw [← hcur] at hx hsource
  rw [← hnext] at hdest
  have hpair : FramePair u.bankS.desc u.bankD.desc :=
    hnext ▸ hx.pair.setBase u.bankS.desc.base (s.scratchBase pre.length)
  have hadm : x.prim.primitive.admissible u.bankS.desc u.bankD.desc = true :=
    hnext ▸ (x.prim.admissible_setBase u.bankS.desc x.next u.bankS.desc.base _).trans hx.admissible
  have hdepth : x.prim.primitive.equalDepth = true → u.bankS.desc.nbit = u.bankD.desc.nbit := hnext ▸ hx.depth
  have hinS := hsource.inMemory hmS
  have hinD := hdest.inMemory hmD
  exact exec_prim_of_checked hS hD
    (checkPrimitive_eq_none hadm hpair.width hpair.height hdepth hinS hinD (hsource.apart hdest hapart))
    (Desc.inMemory_of_region hpair.src (Region.inMemory_iff.mp hinS))
    (Desc.inMemory_of_region hpair.dst (Region.inMemory_iff.mp hinD))

/-- Settles O59: each step finds its frames laid out, admitted, inside memory and apart. -/
theorem convertStepsArePrimitives : Obligations.ConvertStepsArePrimitives := by
  intro s pre post x m cur hs h hrun
  obtain ⟨hvalid, -⟩ := convertPlan_ok h
  obtain ⟨hlaidS, hlaid⟩ := convertPlan_laid h hs.1
  have hbefore (before : List PlanStep) (y : PlanStep) (hpre : pre = before ++ [y]) :
      cur = y.placed s before.length := by
    rw [hpre, runSteps_snoc] at hrun
    exact (congrArg Prod.snd hrun).symm
  refine ⟨?first, fun before y hpre => ?later, ⟨_, convertPlan_step_exec hs h ?validS rfl ?source ?dest ?mem, rfl, rfl⟩,
    fun t ht => ?last⟩
  case first =>
    rintro rfl
    cases hrun
    exact ⟨rfl, rfl⟩
  case later =>
    rw [← State.scratchBase_eq]
    exact hbefore before y hpre
  case validS =>
    dsimp only
    split
    · exact hvalid
    · rfl
  case source =>
    rw [hrun]
    dsimp only
    rcases List.eq_nil_or_concat pre with rfl | ⟨before, y, hpre⟩
    · rw [if_pos rfl]
      exact congrArg Prod.snd hrun
    · rw [List.concat_eq_append] at hpre
      rw [if_neg (by simp [hpre]), hbefore before y hpre]
      exact PlanStep.placed_desc (hlaid y (by simp [hpre])) s _
  case dest =>
    dsimp only
    rw [← State.scratchBase_eq]
    exact PlanStep.placed_desc (hlaid x (by simp)) s _
  case mem =>
    rw [hrun]
  case last =>
    cases ht.symm.trans (exec_convert_of_plan hs h)
    rfl

/-! ### What `CONVERT` reports -/

@[simp] theorem lastStage_snoc (l : List PlanStep) (x : PlanStep) : lastStage (l ++ [x]) = x.stage := by
  simp [lastStage]

/-- Step `k` writes scratch buffer `k mod 2`, and `RESBUF` names buffer `i` by `i + 1`. -/
theorem resultBuffer_succ (k : Nat) : resultBuffer (k + 1) = if k % 2 = 0 then 1#2 else 2#2 := by
  unfold resultBuffer
  rw [if_neg (Nat.succ_ne_zero k)]
  rcases Nat.mod_two_eq_zero_or_one k with hk | hk
  · rw [if_pos (by omega), if_pos hk]
  · rw [if_neg (by omega), if_neg (by omega)]

/-- A plan has at most seven steps, so `NSTEPS` counts them all (43_orchestrator.md R172). -/
theorem convertPlan_length {s : State} {steps : List PlanStep} (h : convertPlan s = .ok steps) : steps.length ≤ 7 := by
  obtain ⟨-, -, -, -, -, -, -, p, rfl, hp⟩ := convertPlan_ok h
  exact (planStagesIncrease _ _ p hp).2.2

/-- Settles O52: the state is the result of the plan's steps, completed. -/
theorem convertResult : Obligations.ConvertResult := by
  intro s steps hs h
  obtain ⟨-, hlaid⟩ := convertPlan_laid h hs.1
  have hcount : (BitVec.ofNat 3 steps.length).toNat = steps.length :=
    Nat.mod_eq_of_lt (Nat.lt_succ_of_le (convertPlan_length h))
  refine ⟨_, exec_convert_of_plan hs h, rfl, rfl, rfl, hcount, ?_, fun pre x hsteps => ?_⟩
  · rintro rfl
    exact ⟨rfl, rfl, rfl, rfl⟩
  · subst hsteps
    have hcap := (convertPlan_step hs h s.mem).2
    have hW : (s.convertResult (pre ++ [x]) (runSteps s 0 s.bankS.desc (pre ++ [x]) s.mem)).complete.bankW =
        Bank.ofDesc (x.placed s pre.length) := by
      rw [State.complete_bankW, State.convertResult_bankW, if_neg (by simp), runSteps_snoc]
    rw [hW, ← State.scratchBase_eq]
    refine ⟨?_, ?_, rfl, PlanStep.placed_desc (hlaid x (by simp)) s _, ?_⟩
    · simp
    · simp [resultBuffer_succ]
    · change BitVec.ofNat 32 x.next.bufSize = _
      rw [hcap, State.capacityAt_eq, BitVec.ofNat_toNat, BitVec.setWidth_eq]

/-! ### The result against the request -/

/-- The fields in which a conversion's result is the requested descriptor (43_orchestrator.md R180). -/
structure Desc.Matches (d e : Desc) : Prop where
  width : d.width = e.width
  height : d.height = e.height
  fmt : d.fmt = e.fmt
  nbit : d.nbit = e.nbit
  tiled : d.tiled = e.tiled
  yStride : d.yStride = e.yStride
  uvStride : d.uvStride = e.uvStride
  ioSize : d.ioSize = e.ioSize

/-- The chroma stride of a laid-out frame follows from its format, depth, tiling and luma stride
(40_classifier_layout.md R108). -/
theorem FramePair.uvStride_eq {d e : Desc} (h : FramePair d e) (hf : d.fmt = e.fmt) (hn : d.nbit = e.nbit)
    (ht : d.tiled = e.tiled) (hy : d.yStride = e.yStride) : d.uvStride = e.uvStride := by
  have hluma : d.lumaStride = e.lumaStride := by rw [← Desc.yStride_of_layout h.src, hy, Desc.yStride_of_layout h.dst]
  rw [Desc.uvStride_of_layout h.src, Desc.uvStride_of_layout h.dst, Request.chromaStride, Request.chromaStride, hf, ht,
    hluma, h.width]
  cases hte : e.tiled with
  | false => simp only [Bool.false_eq_true, if_false]
  | true =>
    have hd := Desc.tile_of_layout h.src (ht.trans hte)
    have he := Desc.tile_of_layout h.dst hte
    have htw : d.tw = e.tw := by omega
    have htsz : d.tsz = e.tsz := by omega
    rw [htw, htsz]

/-- Before stage 5 the working descriptor has the requested format, depth and tiling. -/
theorem plan_beforeRelayout {g : PlanGoal} {src : Desc} {q : Planner} (hin : PlanInput g src)
    (h : plan src g = .ok q) :
    ∃ p : Planner, PlanChain g src p.steps p.cur ∧ p.cur.fmt = g.dst.fmt ∧ p.cur.nbit = g.dst.nbit ∧
      p.cur.tiled = g.dst.tiled ∧ planS5 g p = .ok q := by
  obtain ⟨p, h, h5⟩ := PlanResult.bind_ok h
  split at h
  · obtain ⟨hp, hf, hn, ht⟩ := planStages_chain hin h
    exact ⟨p, hp, hf, hn, ht, h5⟩
  · rename_i hneed
    cases h
    obtain ⟨hf, hn, -, ht⟩ := not_not.mp (mt planNeed_iff.mpr hneed)
    exact ⟨_, .nil, hf, hn, ht, h5⟩

/-- A plan ends in a descriptor that matches the request. -/
theorem plan_matches {g : PlanGoal} {src : Desc} {q : Planner} (hin : PlanInput g src) (h : plan src g = .ok q) :
    q.cur.Matches g.dst := by
  obtain ⟨p, hp, hf, hn, ht, h5⟩ := plan_beforeRelayout hin h
  unfold planS5 at h5
  split at h5
  · obtain ⟨der, hl, hcur, -⟩ := addStep_ok h5
    have hder : der = g.dst.toDerived := (layout_ok hl).2.2.trans (Desc.derived_of_layout hin.pair.dst).symm
    rw [hcur, hder]
    exact ⟨rfl, rfl, rfl, rfl, rfl, rfl, rfl, rfl⟩
  · rename_i heq
    obtain ⟨hy, hio⟩ := not_or.mp heq
    have hpair : FramePair p.cur g.dst := ⟨hp.layout hin.pair.src, hin.pair.dst, hp.dims.1.trans hin.pair.width,
      hp.dims.2.trans hin.pair.height⟩
    cases h5
    exact ⟨hpair.width, hpair.height, hf, hn, ht, not_not.mp hy, hpair.uvStride_eq hf hn ht (not_not.mp hy),
      not_not.mp hio⟩

/-- Where a frame lies does not matter to a match. -/
theorem Desc.Matches.setBase {d e : Desc} (h : d.Matches e) (a : Nat) : Desc.Matches { d with base := a } e :=
  ⟨h.width, h.height, h.fmt, h.nbit, h.tiled, h.yStride, h.uvStride, h.ioSize⟩

/-- The descriptor bank `W` holds after a conversion is the plan's last one, somewhere. -/
theorem convertResult_desc {s : State} (hs : s.OperandsSound) {p : Planner} (h : convertPlan s = .ok p.steps)
    (hchain : PlanChain s.planGoal s.bankS.desc p.steps p.cur) :
    ∃ a, (s.convertResult p.steps (runSteps s 0 s.bankS.desc p.steps s.mem)).bankW.desc = { p.cur with base := a } := by
  obtain ⟨hlaidS, hlaid⟩ := convertPlan_laid h hs.1
  obtain ⟨⟨a, hlast⟩, -⟩ := hchain.runSteps_read s.mem
  rw [State.convertResult_bankW]
  split
  · rename_i hlen
    rw [List.length_eq_zero_iff.mp hlen] at hlast
    exact ⟨a, hlast⟩
  · have hfinal := runSteps_laid (st := s) hlaid (k := 0) hlaidS s.mem
    rw [Bank.desc, Bank.ofDesc_request hfinal, Bank.ofDesc_derived hfinal, hlast]
    exact ⟨_, rfl⟩

/-- Supported formats have one code each (30_encoding.md R86). -/
theorem PixelFormat.code_ofCode {f : BitVec 4} (h : (PixelFormat.ofCode f).isSupported = true) :
    (PixelFormat.ofCode f).code = f := by
  revert f
  decide

/-- Banks whose descriptors match hold the same registers. -/
theorem Bank.fields_of_matches {b c : Bank} (h : b.desc.Matches c.desc) (hsup : c.desc.fmt.isSupported = true) :
    b.width = c.width ∧ b.height = c.height ∧ b.fmt = c.fmt ∧ b.nbit = c.nbit ∧ b.tiled = c.tiled ∧
      b.yStride = c.yStride ∧ b.uvStride = c.uvStride ∧ b.ioSize = c.ioSize := by
  have hfmt : b.fmt = c.fmt := by
    have hsup' : b.desc.fmt.isSupported = true := h.fmt ▸ hsup
    rw [← PixelFormat.code_ofCode hsup', ← PixelFormat.code_ofCode hsup]
    exact congrArg PixelFormat.code h.fmt
  exact ⟨BitVec.eq_of_toNat_eq h.width, BitVec.eq_of_toNat_eq h.height, hfmt, BitVec.eq_of_toNat_eq h.nbit, h.tiled,
    BitVec.eq_of_toNat_eq h.yStride, BitVec.eq_of_toNat_eq h.uvStride, BitVec.eq_of_toNat_eq h.ioSize⟩

/-- Settles O60: the last descriptor of the plan matches the request, and bank `W` holds it. -/
theorem convertResultMatchesRequest : Obligations.ConvertResultMatchesRequest := by
  intro s t steps hs h ht
  cases ht.symm.trans (exec_convert_of_plan hs h)
  obtain ⟨hS, hD, hmono, hw, hh, -, -, p, rfl, hp⟩ := convertPlan_ok h
  have hin : PlanInput s.planGoal s.bankS.desc := ⟨State.framePair hs hS hD hw hh, hmono⟩
  have hmatch := plan_matches hin hp
  obtain ⟨a, hW⟩ := convertResult_desc hs h (plan_chain hin hp)
  rw [State.complete_bankW]
  exact Bank.fields_of_matches (hW ▸ hmatch.setBase a) (Desc.supported_of_layout hin.pair.dst)

end Sys2Proof.Machine
end

section
/-! PROOFS. Exceptions: how a command ends, that it always ends from sound banks, the interrupt line, acceptance of a
command word, and the return from an error (60_exceptions.md R196 to R207). -/

namespace Sys2Proof.Machine

/-! ### How a command ends -/

/-- The two ends of a command that ran from `s`: `DONE` with the error record kept (60_exceptions.md R201), or error entry
(R198). -/
inductive CommandEnd (s : State) : State → Prop
  | done {t : State} (hbusy : t.status.busy = false) (hdone : t.status.done = true) (herr : t.status.err = s.status.err)
      (hcode : t.status.errcode = s.status.errcode) (hinfo : t.errinfo = s.errinfo) (hirq : t.irqEn = s.irqEn) :
      CommandEnd s t
  | failed (c : ErrCode) (g : Stage) : CommandEnd s (s.raiseError c g)

theorem CommandResult.commandEnd {s t : State} {i : Instr} (h : CommandResult s i t) : CommandEnd s t := by
  cases h with
  | failed _ c g => exact .failed c g
  | _ => exact .done rfl rfl rfl rfl rfl rfl

/-- Settles O23: the two ends of a command, without an error before it. -/
theorem commandsEndInDoneOrPreciseError : Obligations.CommandsEndInDoneOrPreciseError := by
  intro i s t herr h
  cases (exec_next h).commandEnd with
  | done hbusy hdone herr' hcode hinfo _ => exact .inl ⟨hbusy, hdone, herr'.trans herr, hcode, hinfo⟩
  | failed c g => exact .inr ⟨c, g, rfl⟩

/-- The interrupt line after a command is the enable of its kind of completion (60_exceptions.md R202). -/
theorem CommandEnd.irq {s t : State} (h : CommandEnd s t) (herr : s.status.err = false) :
    t.irq = if t.status.err = true then s.irqEn.errEn else s.irqEn.doneEn := by
  cases h with
  | done _ hdone herr' _ _ hirq => simp [State.irq, hdone, herr', herr, hirq]
  | failed c g => simp [State.irq]

/-- Settles O14: the formula is the definition of the line, and a command ends with exactly one of its two flags. -/
theorem interruptFollowsCompletion : Obligations.InterruptFollowsCompletion :=
  ⟨fun s => by simp [State.irq], fun _ _ _ herr h => (exec_next h).commandEnd.irq herr⟩

/-! ### Every command ends -/

/-- A primitive's range check covers both frames, so from sound banks no address it forms lies past memory
(40_classifier_layout.md R113, 60_exceptions.md R196). -/
theorem exec_prim_completes (p : Prim) {s : State} (hs : s.OperandsSound) : ∃ t, exec p.instr s = .next t := by
  rw [exec_prim]
  rcases runPrimitive_cases p.primitive s with ⟨-, e⟩ | ⟨c, -, -, -, e⟩ | ⟨-, -, -, -, -, e⟩ | ⟨hS, hD, hc, hm, -⟩
  · exact ⟨_, e⟩
  · exact ⟨_, e⟩
  · exact ⟨_, e⟩
  · obtain ⟨-, -, -, -, hinS, hinD, -⟩ := checkPrimitive_none hc
    exact absurd ⟨Desc.inMemory_of_region (Bank.sound_layout hs.1 hS) (Region.inMemory_iff.mp hinS),
      Desc.inMemory_of_region (Bank.sound_layout hs.2 hD) (Region.inMemory_iff.mp hinD)⟩ hm

/-- Phase 1 of `CONVERT` fails, or its steps run. -/
theorem exec_convert_completes {s : State} (hs : s.OperandsSound) : ∃ t, exec .convert s = .next t := by
  rcases hp : convertPlan s with ⟨c, g⟩ | steps
  · exact ⟨_, exec_convert_of_error hp⟩
  · exact ⟨_, exec_convert_of_plan hs hp⟩

/-- From sound banks every command ends. -/
theorem exec_completes (i : Instr) {s : State} (hs : s.OperandsSound) : ∃ t, exec i s = .next t := by
  cases i with
  | nop => exact ⟨_, rfl⟩
  | layoutS =>
    simp only [exec, execLayoutS]
    split <;> exact ⟨_, rfl⟩
  | layoutD =>
    simp only [exec, execLayoutD]
    split <;> exact ⟨_, rfl⟩
  | copylayout =>
    simp only [exec, execCopylayout]
    split <;> exact ⟨_, rfl⟩
  | unpack10 => exact exec_prim_completes .unpack10 hs
  | pack10 => exact exec_prim_completes .pack10 hs
  | narrow => exact exec_prim_completes .narrow hs
  | widen => exact exec_prim_completes .widen hs
  | rescale16 => exact exec_prim_completes .rescale16 hs
  | untile8 => exact exec_prim_completes .untile8 hs
  | tile8 => exact exec_prim_completes .tile8 hs
  | sp2p => exact exec_prim_completes .sp2p hs
  | p2sp => exact exec_prim_completes .p2sp hs
  | pk2p => exact exec_prim_completes .pk2p hs
  | p2pk => exact exec_prim_completes .p2pk hs
  | resample => exact exec_prim_completes .resample hs
  | rectcopy => exact exec_prim_completes .rectcopy hs
  | convert => exact exec_convert_completes hs

/-- The step that runs the word in `CMD`, legal or not, ends the command (60_exceptions.md R198, R201). -/
theorem step_ends_command {s : State} (hs : s.OperandsSound) (hb : s.status.busy = true) (hw : s.wait = 0) :
    ∃ t, step s = .next t ∧ CommandEnd s t := by
  rcases hd : decode s.cmd with e | i
  · exact ⟨_, step_of_illegal hb hw hd, .failed .illegal .none⟩
  · obtain ⟨t, ht⟩ := exec_completes i hs
    exact ⟨t, (step_runs_command hb hw hd).trans ht, (exec_next ht).commandEnd⟩

/-- A transaction is served or refused, never a fault. -/
theorem State.serve_ne_fault (s : State) (i : Input) (f : Fault) : s.serve i ≠ .fault f := by
  cases i <;> simp only [State.serve]
  case reset => exact nofun
  all_goals split <;> exact nofun

/-- Settles O22: a running command ends, and nothing else a step does can fault. -/
theorem soundStateNeverFaults : Obligations.SoundStateNeverFaults := by
  intro s f hs h
  by_cases hrun : s.status.busy = true ∧ s.wait = 0
  · obtain ⟨t, ht, -⟩ := step_ends_command hs hrun.1 hrun.2
    cases h.symm.trans ht
  · rcases hi : s.inputs with _ | ⟨i, rest⟩
    · rw [step_serving hrun, serveNext_nil hi] at h
      cases h
    · rw [step_serve hrun hi] at h
      exact State.serve_ne_fault _ _ _ h

/-! ### The time of a running command -/

/-- A run goes on from what its first step leaves. -/
theorem run_next {s t : State} (h : step s = .next t) (n : Nat) :
    Host.Core.run core (n + 1) s = Host.Core.run core n t := by
  have hcore : core.step s = .next t := h
  simp only [Host.Core.run, hcore]

/-- With no transaction to come only time passes until `T_CMD` is over, and then the command runs
(70_reset_and_hazards.md R222). -/
theorem run_wait {s t : State} {n : Nat} (hw : s.wait = n) (hi : s.inputs = [])
    (h : step { s with wait := 0 } = .next t) : Host.Core.run core (n + 1) s = .next t := by
  induction n generalizing s with
  | zero =>
    have hs : { s with wait := 0 } = s := by rw [← hw]
    exact run_next (hs ▸ h) 0
  | succ n ih =>
    have hrun : ¬(s.status.busy = true ∧ s.wait = 0) := fun hrun => by omega
    have htick : step s = .next s.tick := (step_serving hrun).trans (serveNext_nil hi)
    exact (run_next htick _).trans (ih (by rw [State.tick_wait, hw]; rfl) hi h)

/-! ### One flag of `STATUS` at a time -/

theorem Status.noError_of_busy {t : Status} (h : t.exclusive = true) (hb : t.busy = true) : t.err = false := by
  simp only [Status.exclusive, hb, Bool.true_and, Bool.and_eq_true, Bool.not_eq_true'] at h
  obtain ⟨⟨-, herr⟩, -⟩ := h
  exact herr

theorem Status.idle_of_err {t : Status} (h : t.exclusive = true) (he : t.err = true) :
    t.busy = false ∧ t.done = false := by
  simp only [Status.exclusive, he, Bool.and_true, Bool.and_eq_true, Bool.not_eq_true'] at h
  obtain ⟨⟨-, hbusy⟩, hdone⟩ := h
  exact ⟨hbusy, hdone⟩

/-- Without `ERR` the error record is clear (10_state.md R24, R25). -/
theorem State.errorRecord_of_noError {s : State} (h : s.errorRecordOk = true) (he : s.status.err = false) :
    s.status.errcode = 0#4 ∧ s.errinfo = { opc := 0#8, stage := 0#4 } := by
  simpa [State.errorRecordOk, he] using h

/-- Settles O6: `T_CMD` passes, then the command ends; its `ERR` was 0 because it was running. -/
theorem acceptedCommandCompletes : Obligations.AcceptedCommandCompletes := by
  rintro s ⟨-, hs, -, hexcl, -⟩ hb hi
  have herr := Status.noError_of_busy hexcl hb
  obtain ⟨t, ht, hend⟩ := step_ends_command (s := { s with wait := 0 }) hs hb rfl
  refine ⟨t, run_wait rfl hi ht, ?_⟩
  cases hend with
  | done hbusy hdone herr' => exact ⟨hbusy, .inl ⟨hdone, herr'.trans herr⟩⟩
  | failed c g => exact ⟨rfl, .inr ⟨rfl, rfl⟩⟩

/-! ### Acceptance -/

/-- No command has regions while a bank is not laid out (10_state.md R37; log 6). -/
theorem State.usedRegions_of_invalid {s : State} (h : ¬(s.bankS.valid = true ∧ s.bankD.valid = true)) (i : Instr) :
    s.usedRegions i = [] := by
  rw [← Bool.and_eq_true] at h
  exact if_neg h

/-- `NOP` and the layout commands have no regions (20_memory.md R61). -/
theorem State.usedRegions_of_noMemory (s : State) {i : Instr} (h : i ∈ [Instr.nop, .layoutS, .layoutD, .copylayout]) :
    s.usedRegions i = [] := by
  simp only [List.mem_cons, List.not_mem_nil, or_false] at h
  rcases h with rfl | rfl | rfl | rfl <;> exact ite_self _

section
variable {s : State} (hS : s.bankS.valid = true) (hD : s.bankD.valid = true)
include hS hD

theorem State.usedRegions_prim (p : Prim) : s.usedRegions p.instr = [s.bankS.region, s.bankD.region] := by
  have hv : (s.bankS.valid && s.bankD.valid) = true := by rw [hS, hD]; rfl
  cases p <;> exact if_pos hv

theorem State.usedRegions_convert : s.usedRegions .convert = [s.bankS.region, s.scr0, s.scr1] := by
  have hv : (s.bankS.valid && s.bankD.valid) = true := by rw [hS, hD]; rfl
  exact if_pos hv

end

theorem State.regionsOfWord_of_ok (s : State) {w : Word} {i : Instr} (h : decode w = .ok i) :
    s.regionsOfWord w = s.usedRegions i := by
  rw [State.regionsOfWord, h]

theorem State.regionsOfWord_of_error (s : State) {w : Word} {e : Reject} (h : decode w = .error e) :
    s.regionsOfWord w = [] := by
  rw [State.regionsOfWord, h]

theorem State.regionsOfWord_of_invalid {s : State} (h : ¬(s.bankS.valid = true ∧ s.bankD.valid = true)) (w : Word) :
    s.regionsOfWord w = [] := by
  rcases hd : decode w with e | i
  · exact s.regionsOfWord_of_error hd
  · rw [s.regionsOfWord_of_ok hd, State.usedRegions_of_invalid h]

/-- A `CMD` write made while `BUSY = 0` and `ERR = 0` is accepted (60_exceptions.md R200). -/
theorem State.writeReg_cmd_accepted {s : State} (hb : s.status.busy = false) (he : s.status.err = false) (w : Word) :
    s.writeReg .cmd w = s.accept w := by
  rw [State.writeReg_of_idle hb]
  simp only [State.writeIdle, State.writeCmd, he, Bool.false_eq_true, if_false]

/-- A `CMD` write made while `BUSY = 1` or `ERR = 1` is dropped (60_exceptions.md R200, 10_state.md R28). -/
theorem State.writeReg_cmd_dropped {s : State} (h : s.status.busy = true ∨ s.status.err = true) (w : Word) :
    s.writeReg .cmd w = s := by
  cases hb : s.status.busy with
  | true => rw [State.writeReg_of_busy hb, if_neg nofun]
  | false =>
    have he : s.status.err = true := h.resolve_left (by simp [hb])
    rw [State.writeReg_of_idle hb]
    simp only [State.writeIdle, State.writeCmd, he, if_true]

theorem step_cmdWrite {s : State} {w : Word} {rest : List Input} (hrun : ¬(s.status.busy = true ∧ s.wait = 0))
    (hi : s.inputs = .regWrite 0x004 32 w :: rest) : step s = .next ((s.taken rest).writeReg .cmd w) := by
  rw [step_serve hrun hi, State.serve_regWrite (Reg.ofAccess_of_registerMap (r := .cmd) (by decide))]

/-- Settles O7: the write reaches `CMD`, and `BUSY` and `ERR` decide whether it is accepted. -/
theorem commandAcceptance : Obligations.CommandAcceptance := by
  rintro s w rest held hi rfl
  refine ⟨fun hb he => ⟨s.regionsOfWord w, ?accepted, fun hS hD => ⟨fun p hd => ?prim, fun hd => ?convert⟩,
    fun hv => State.regionsOfWord_of_invalid hv w, fun i hmem hd => ?noMemory,
    fun e hd => s.regionsOfWord_of_error hd⟩, ?dropped⟩
  case accepted =>
    rw [step_cmdWrite (by simp [hb]) hi, State.writeReg_cmd_accepted (s := s.taken rest) hb he]
    rfl
  case prim => rw [s.regionsOfWord_of_ok hd, State.usedRegions_prim hS hD]
  case convert => rw [s.regionsOfWord_of_ok hd, State.usedRegions_convert hS hD]
  case noMemory => rw [s.regionsOfWord_of_ok hd, s.usedRegions_of_noMemory hmem]
  case dropped =>
    intro h
    rcases h with ⟨hb, hw⟩ | ⟨hb, he⟩
    · rw [step_cmdWrite (fun hrun => hw hrun.2) hi, State.writeReg_cmd_dropped (s := s.taken rest) (.inl hb)]
    · rw [step_cmdWrite (by simp [hb]) hi, State.writeReg_cmd_dropped (s := s.taken rest) (.inr he)]

/-! ### The return from an error -/

/-- The acknowledge clears the error record and leaves a clear `DONE` as it is (60_exceptions.md R203). -/
theorem State.writeStatus_acknowledge {s : State} {v : Word} (hd : s.status.done = false) (hv : v.getLsbD 2 = true) :
    s.writeStatus v =
      { s with status := { s.status with err := false, errcode := 0#4 }, errinfo := { opc := 0#8, stage := 0#4 } } := by
  simp [State.writeStatus, hd, hv]

/-- A write that acknowledges nothing touches `DONE` alone: with bit 2 clear, or with an error record already clear. -/
theorem State.writeStatus_done {s : State} {v : Word} (hrec : s.errorRecordOk = true)
    (h : s.status.err = false ∨ v.getLsbD 2 = false) :
    s.writeStatus v =
      { s with status := { s.status with done := if v.getLsbD 1 = true then false else s.status.done } } := by
  have hdone : (s.status.done && !v.getLsbD 1) = if v.getLsbD 1 = true then false else s.status.done := by
    cases v.getLsbD 1 <;> simp
  cases hv : v.getLsbD 2 with
  | false => simp only [State.writeStatus, hdone, hv, Bool.not_false, Bool.and_true, Bool.false_eq_true, if_false]
  | true =>
    have he : s.status.err = false := h.resolve_right (by simp [hv])
    obtain ⟨hcode, hinfo⟩ := State.errorRecord_of_noError hrec he
    simp only [State.writeStatus, hdone, hv, he, hcode, hinfo, Bool.false_and, if_true]

/-- Settles O11: `BUSY` and `DONE` are 0 beside `ERR`, so the acknowledge is served and the next command accepted. -/
theorem acknowledgeReturnsFromError : Obligations.AcknowledgeReturnsFromError := by
  refine ⟨fun s v w ⟨hexcl, _, _⟩ he hv => ?_, fun s v ⟨_, hrec, _⟩ hb h => ?_⟩
  · obtain ⟨hb, hd⟩ := Status.idle_of_err hexcl he
    have hwrite : s.writeReg .status v = s.writeStatus v := State.writeReg_of_idle hb _ _
    have hack := State.writeStatus_acknowledge hd hv
    have herr : (s.writeStatus v).status.err = false := by rw [hack]
    rw [hwrite, State.writeReg_cmd_accepted (s := s.writeStatus v) hb herr]
    exact ⟨hack, rfl, rfl, rfl⟩
  · exact (State.writeReg_of_idle hb _ _).trans (State.writeStatus_done hrec h)

end Sys2Proof.Machine
end

section
/-! PROOFS. The host's accesses to memory bytes, and the reset input (20_memory.md R60, R73, 70_reset_and_hazards.md R210,
R211, R217). -/

namespace Sys2Proof.Machine

/-! ### The host's side of memory -/

section
variable {s : State} {a : Addr}

theorem State.engineOwns_iff {n : Nat} :
    s.engineOwns n = true ↔ ∃ r ∈ s.owned, r.base ≤ n ∧ n < r.base + r.size := by
  simp only [State.engineOwns, List.any_eq_true, Region.contains_iff]

theorem State.serve_memRead_refused (h : s.engineOwns a.toNat = true) : s.serve (.memRead a) = .refused .hostRace :=
  if_pos h

theorem State.serve_memWrite_refused (h : s.engineOwns a.toNat = true) (b : Byte) :
    s.serve (.memWrite a b) = .refused .hostRace :=
  if_pos h

theorem State.serve_memRead (h : ¬s.engineOwns a.toNat = true) :
    s.serve (.memRead a) = .next { s with memData := Memory.read s.mem a.toNat } :=
  if_neg h

theorem State.serve_memWrite (h : ¬s.engineOwns a.toNat = true) (b : Byte) :
    s.serve (.memWrite a b) = .next { s with mem := Memory.write s.mem a.toNat b } :=
  if_neg h

end

/-- Settles O12: the byte is looked up in the regions left once the interrupt line is seen, and every 32-bit address has
a byte. -/
theorem hostMemoryAccess : Obligations.HostMemoryAccess := by
  rintro s a b rest held hrun rfl
  have howns := State.engineOwns_iff (s := s.taken rest) (n := a.toNat)
  refine ⟨fun hin => ⟨fun hi => ?refusedRead, fun hi => ?refusedWrite⟩,
    fun hout => ⟨fun hi => ?read, fun hi hwf => ⟨Memory.write s.mem a.toNat b, ?write, ?same, ?other⟩⟩⟩
  case refusedRead => rw [step_serve hrun hi, State.serve_memRead_refused (howns.mpr hin)]
  case refusedWrite => rw [step_serve hrun hi, State.serve_memWrite_refused (howns.mpr hin)]
  case read => rw [step_serve hrun hi, State.serve_memRead (mt howns.mp hout)]
  case write => rw [step_serve hrun hi, State.serve_memWrite (mt howns.mp hout)]
  case same => exact Memory.read_write_same hwf a.isLt b
  case other => exact fun a' hne => Memory.read_write_ne s.mem b hne

/-! ### The bytes a reset abandons -/

/-- The bytes a reset may make free values are those the running command may write (70_reset_and_hazards.md R211;
log 7). -/
theorem State.mem_abandonedRegions {s : State} {r : Region} (h : r ∈ s.abandonedRegions) :
    ∃ i, decode s.cmd = .ok i ∧ r ∈ s.writableRegions i := by
  unfold State.abandonedRegions at h
  split at h
  · split at h
    · rename_i i hd
      exact ⟨i, hd, h⟩
    · cases h
  · cases h

theorem State.abandonedRegions_of_idle {s : State} (h : s.status.busy = false) : s.abandonedRegions = [] := by
  simp [State.abandonedRegions, h]

theorem abandonRegion_read (k : Nat) (m : Memory) {r : Region} {a : Nat} (h : r.contains a = false) :
    Memory.read (abandonRegion k m r) a = Memory.read m a := by
  rw [← Bool.not_eq_true, Region.contains_iff] at h
  exact iterate_read (fun i hi m' => Memory.read_write_ne m' _ (by omega)) m

theorem abandonRegions_read (k : Nat) {l : List Region} {a : Nat} (h : ∀ r ∈ l, r.contains a = false) (m : Memory) :
    Memory.read (l.foldl (abandonRegion k) m) a = Memory.read m a := by
  induction l generalizing m with
  | nil => rfl
  | cons r l ih =>
    obtain ⟨hr, hl⟩ := List.forall_mem_cons.mp h
    rw [List.foldl_cons, ih hl, abandonRegion_read k m hr]

/-! ### The state a reset leaves -/

@[simp] theorem State.resetBlock_regValue (s : State) (r : Reg) : s.resetBlock.regValue r = State.reset.regValue r := by
  cases r with
  | bank b f => simp [State.regValue]
  | _ => rfl

@[simp] theorem State.resetBlock_irq (s : State) : s.resetBlock.irq = false := rfl

@[simp] theorem State.resetBlock_owned (s : State) : s.resetBlock.owned = [] := rfl

theorem State.resetBlock_mem_of_idle {s : State} (h : s.status.busy = false) : s.resetBlock.mem = s.mem := by
  simp [State.resetBlock, State.abandonedRegions_of_idle h]

theorem State.resetBlock_read {s : State} {a : Nat} (h : ∀ r ∈ s.abandonedRegions, r.contains a = false) :
    Memory.read s.resetBlock.mem a = Memory.read s.mem a :=
  abandonRegions_read s.epoch h s.mem

theorem step_reset {s : State} {rest : List Input} (hrun : ¬(s.status.busy = true ∧ s.wait = 0))
    (hi : s.inputs = .reset :: rest) : step s = .next (s.taken rest).resetBlock :=
  step_serve hrun hi

/-- Settles O16: the registers are those of `State.reset`, and memory changes only where regions are abandoned. -/
theorem resetInputLeavesMemory : Obligations.ResetInputLeavesMemory := by
  intro s rest hrun hi
  refine ⟨(s.taken rest).resetBlock, step_reset hrun hi, State.resetBlock_regValue _, State.resetBlock_irq _,
    State.resetBlock_owned _, fun hb => State.resetBlock_mem_of_idle (s := s.taken rest) hb, fun a hout => ?frame⟩
  case frame =>
    refine State.resetBlock_read (s := s.taken rest) fun r hr => ?_
    obtain ⟨i, hd, hw⟩ := State.mem_abandonedRegions hr
    exact hout i hd r hw

end Sys2Proof.Machine
end

section
/-! PROOFS. Memory stays in canonical form: the body of every primitive, a chain of them, the host and a reset write
through `M[a] <- b` (20_memory.md R60, 41_codec.md R120, 70_reset_and_hazards.md R211). -/

namespace Sys2Proof.Machine

/-! ### The bodies -/

theorem forRows_wf {s d : Desc} {f : Plane → Plane → Nat → Memory → Memory}
    (h : ∀ ps pd y m, Memory.wf m = true → Memory.wf (f ps pd y m) = true) {m : Memory} (hm : Memory.wf m = true) :
    Memory.wf (forRows s d f m) = true :=
  iterate_wf (fun _ _ _ hm1 => iterate_wf (fun _ _ _ hm2 => h _ _ _ _ hm2) hm1) hm

theorem forPairs_wf {rows n : Nat} {f : Nat → Nat → Memory → Memory}
    (h : ∀ y i m, Memory.wf m = true → Memory.wf (f y i m) = true) {m : Memory} (hm : Memory.wf m = true) :
    Memory.wf (forPairs rows n f m) = true :=
  iterate_wf (fun _ _ _ hm1 => iterate_wf (fun _ _ _ hm2 => h _ _ _ hm2) hm1) hm

theorem forCells_wf {rows ws : Nat} {f : Nat → Nat → Nat → Nat → Memory → Memory}
    (h : ∀ ty tx r c m, Memory.wf m = true → Memory.wf (f ty tx r c m) = true) {m : Memory}
    (hm : Memory.wf m = true) : Memory.wf (forCells rows ws f m) = true :=
  iterate_wf (fun _ _ _ hm1 => iterate_wf (fun _ _ _ hm2 => iterate_wf (fun _ _ _ hm3 =>
    iterate_wf (fun _ _ _ hm4 => h _ _ _ _ _ hm4) hm3) hm2) hm1) hm

theorem wf_packFrom {m : Memory} (hm : Memory.wf m = true) (ra l : Nat) (v : List Nat) (acc nv k : Nat) :
    Memory.wf (packFrom m ra l v acc nv k) = true := by
  induction v generalizing m acc nv k with
  | nil =>
    unfold packFrom
    split
    · exact wf_storeWord hm ..
    · exact hm
  | cons x rest ih =>
    unfold packFrom
    split
    · exact ih (wf_storeWord hm ..) ..
    · exact ih hm ..

theorem wf_packRow {m : Memory} (hm : Memory.wf m = true) (ra : Nat) (v : List Nat) :
    Memory.wf (packRow m ra v) = true :=
  wf_packFrom hm ..

theorem wf_packPlaneTiled (s d : Desc) (ps pd : Plane) {m : Memory} (hm : Memory.wf m = true) :
    Memory.wf (packPlaneTiled s d ps pd m) = true :=
  iterate_wf (fun _ _ _ hm1 => iterate_wf (fun _ _ _ hm2 =>
    iterate_wf (fun _ _ _ hm3 => Memory.wf_writeLE hm3 _ _ _) hm2) hm1) hm

theorem wf_bodyPack10 (s d : Desc) {m : Memory} (hm : Memory.wf m = true) : Memory.wf (bodyPack10 s d m) = true := by
  unfold bodyPack10
  split
  · exact iterate_wf (fun _ _ _ hm1 => wf_packPlaneTiled s d _ _ hm1) hm
  · exact forRows_wf (fun _ _ _ _ hm1 => wf_packRow hm1 _ _) hm

theorem wf_mapSamples (rb wb : Nat) (f : Nat → Nat) (s d : Desc) {m : Memory} (hm : Memory.wf m = true) :
    Memory.wf (mapSamples rb wb f s d m) = true :=
  forRows_wf (fun _ _ _ _ hm1 => iterate_wf (fun _ _ _ hm2 => Memory.wf_writeLE hm2 _ _ _) hm1) hm

theorem wf_bodyUntile8 (s d : Desc) {m : Memory} (hm : Memory.wf m = true) :
    Memory.wf (bodyUntile8 s d m) = true := by
  refine iterate_wf (fun i _ m0 hm0 => forCells_wf (fun ty tx r c m1 hm1 => ?_) hm0) hm
  split
  · exact Memory.wf_write hm1 _ _
  · exact hm1

theorem wf_bodyTile8 (s d : Desc) {m : Memory} (hm : Memory.wf m = true) : Memory.wf (bodyTile8 s d m) = true :=
  iterate_wf (fun _ _ _ hm0 => forCells_wf (fun _ _ _ _ _ hm1 => Memory.wf_write hm1 _ _) hm0) hm

theorem Memory.wf_moveSample {m : Memory} (hm : Memory.wf m = true) (b dst src : Nat) :
    Memory.wf (Memory.moveSample m b dst src) = true :=
  Memory.wf_writeLE hm ..

theorem wf_copyPlane (s : Desc) (ps : Plane) (d : Desc) (pd : Plane) (b : Nat) (rowmap : Nat → Nat) {m : Memory}
    (hm : Memory.wf m = true) : Memory.wf (copyPlane s ps d pd b rowmap m) = true :=
  iterate_wf (fun _ _ _ hm1 => Memory.wf_copyBytes hm1 ..) hm

theorem wf_bodySp2p (s d : Desc) {m : Memory} (hm : Memory.wf m = true) : Memory.wf (bodySp2p s d m) = true :=
  forPairs_wf (fun _ _ _ hm1 => Memory.wf_moveSample (Memory.wf_moveSample hm1 ..) ..) (wf_copyPlane _ _ _ _ _ _ hm)

theorem wf_bodyP2sp (s d : Desc) {m : Memory} (hm : Memory.wf m = true) : Memory.wf (bodyP2sp s d m) = true :=
  forPairs_wf (fun _ _ _ hm1 => Memory.wf_moveSample (Memory.wf_moveSample hm1 ..) ..) (wf_copyPlane _ _ _ _ _ _ hm)

theorem wf_fourMoves {m : Memory} (hm : Memory.wf m = true) (b d1 s1 d2 s2 d3 s3 d4 s4 : Nat) :
    Memory.wf (Memory.moveSample (Memory.moveSample (Memory.moveSample (Memory.moveSample m b d1 s1) b d2 s2) b d3 s3)
      b d4 s4) = true :=
  Memory.wf_moveSample (Memory.wf_moveSample (Memory.wf_moveSample (Memory.wf_moveSample hm ..) ..) ..) ..

theorem wf_bodyPk2p (s d : Desc) {m : Memory} (hm : Memory.wf m = true) : Memory.wf (bodyPk2p s d m) = true :=
  forPairs_wf (fun _ _ _ hm1 => wf_fourMoves hm1 ..) hm

theorem wf_bodyP2pk (s d : Desc) {m : Memory} (hm : Memory.wf m = true) : Memory.wf (bodyP2pk s d m) = true :=
  forPairs_wf (fun _ _ _ hm1 => wf_fourMoves hm1 ..) hm

theorem wf_bodyResample (s d : Desc) {m : Memory} (hm : Memory.wf m = true) :
    Memory.wf (bodyResample s d m) = true :=
  wf_copyPlane _ _ _ _ _ _ (wf_copyPlane _ _ _ _ _ _ (wf_copyPlane _ _ _ _ _ _ hm))

theorem wf_bodyRectcopy (s d : Desc) {m : Memory} (hm : Memory.wf m = true) :
    Memory.wf (bodyRectcopy s d m) = true :=
  iterate_wf (fun _ _ _ hm0 => iterate_wf (fun _ _ _ hm1 => Memory.wf_copyBytes hm1 ..) hm0) hm

/-- The body of every primitive writes memory byte by byte, so it keeps the canonical form between any two frames. -/
theorem Prim.wf_body (p : Prim) (s d : Desc) {m : Memory} (hm : Memory.wf m = true) :
    Memory.wf (p.primitive.body s d m) = true := by
  cases p with
  | unpack10 => exact forRows_wf (fun ps pd y _ hm1 => wf_unpack10Row s d ps pd y hm1) hm
  | pack10 => exact wf_bodyPack10 s d hm
  | narrow => exact wf_mapSamples _ _ _ s d hm
  | widen => exact wf_mapSamples _ _ _ s d hm
  | rescale16 => exact wf_mapSamples _ _ _ s d hm
  | untile8 => exact wf_bodyUntile8 s d hm
  | tile8 => exact wf_bodyTile8 s d hm
  | sp2p => exact wf_bodySp2p s d hm
  | p2sp => exact wf_bodyP2sp s d hm
  | pk2p => exact wf_bodyPk2p s d hm
  | p2pk => exact wf_bodyP2pk s d hm
  | resample => exact wf_bodyResample s d hm
  | rectcopy => exact wf_bodyRectcopy s d hm

/-- So does a chain of them, which is what `CONVERT` runs (43_orchestrator.md R175 phase 2). -/
theorem wf_runSteps (st : State) (k : Nat) (cur : Desc) (steps : List PlanStep) {m : Memory}
    (hm : Memory.wf m = true) : Memory.wf (runSteps st k cur steps m).1 = true := by
  induction steps generalizing k cur m with
  | nil => exact hm
  | cons x rest ih => exact ih _ _ (x.prim.wf_body _ _ hm)

/-! ### Commands, transactions and steps -/

theorem CommandResult.wf_mem {s t : State} {i : Instr} (h : CommandResult s i t) (hm : Memory.wf s.mem = true) :
    Memory.wf t.mem = true := by
  cases h with
  | primitive p => exact p.wf_body _ _ hm
  | convert => exact wf_runSteps _ _ _ _ hm
  | _ => exact hm

theorem State.writeCmd_mem (s : State) (w : Word) : (s.writeCmd w).mem = s.mem := by
  unfold State.writeCmd
  split <;> rfl

/-- No register write touches a byte of memory. -/
theorem State.writeReg_mem (s : State) (r : Reg) (v : Word) : (s.writeReg r v).mem = s.mem := by
  cases hb : s.status.busy with
  | true =>
    rw [State.writeReg_of_busy hb]
    split <;> rfl
  | false =>
    rw [State.writeReg_of_idle hb]
    cases r with
    | bank b f => cases b <;> rfl
    | cmd => exact s.writeCmd_mem v
    | _ => rfl

theorem State.readReg_mem (s : State) (r : Reg) : (s.readReg r).mem = s.mem := by
  rw [State.readReg_eq]

/-- The free values a reset leaves are written like any other byte (70_reset_and_hazards.md R211). -/
theorem wf_abandonRegions (k : Nat) (l : List Region) {m : Memory} (hm : Memory.wf m = true) :
    Memory.wf (l.foldl (abandonRegion k) m) = true := by
  induction l generalizing m with
  | nil => exact hm
  | cons r l ih => exact ih (iterate_wf (fun _ _ _ hm1 => Memory.wf_write hm1 _ _) hm)

theorem ServeResult.wf_mem {s t : State} {i : Input} (h : ServeResult s i t) (hm : Memory.wf s.mem = true) :
    Memory.wf t.mem = true := by
  cases h with
  | regRead => rwa [State.readReg_mem]
  | regWrite => rwa [State.writeReg_mem]
  | memRead => exact hm
  | memWrite => exact Memory.wf_write hm _ _
  | reset => exact wf_abandonRegions _ _ hm

/-- Settles O18: every write of a command, the host or a reset goes through `M[a] <- b`. -/
theorem stepKeepsMemoryCanonical : Obligations.StepKeepsMemoryCanonical := by
  intro s t hm h
  cases step_next h with
  | command _ _ h => exact h.wf_mem hm
  | illegal => exact hm
  | idle => exact hm
  | served _ _ h => exact h.wf_mem hm

end Sys2Proof.Machine
end

section
/-! PROOFS. The status registers stay sound: what they hold while a command runs, which states they are sound in, and
how each kind of step goes from one to another (10_state.md R24, R25, 60_exceptions.md R198 to R203). -/

namespace Sys2Proof.Machine

/-! ### The values that occur -/

theorem ErrCode.code_range (c : ErrCode) : 1 ≤ c.code.toNat ∧ c.code.toNat ≤ 7 := by
  cases c <;> decide

theorem Stage.id_le (g : Stage) : g.id.toNat ≤ 7 := by
  cases g <;> decide

theorem resultBuffer_ne_three (n : Nat) : resultBuffer n ≠ 3#2 := by
  unfold resultBuffer
  split
  · decide
  · split <;> decide

/-! ### Sound status registers -/

/-- The status registers while a command runs: no completion, no error, nothing reported. -/
structure State.Underway (s : State) : Prop where
  noError : s.status.err = false
  code : s.status.errcode = 0#4
  record : s.errinfo = { opc := 0#8, stage := 0#4 }
  stage : s.status.stage = 0#4
  resbuf : s.status.resbuf = 0#2
  nsteps : s.status.nsteps = 0#3

theorem State.StatusSound.underway {s : State} (h : s.StatusSound) (hb : s.status.busy = true) : s.Underway := by
  obtain ⟨hexcl, hrec, hfields⟩ := h
  have herr := Status.noError_of_busy hexcl hb
  obtain ⟨hcode, hinfo⟩ := State.errorRecord_of_noError hrec herr
  simp only [Status.convertFieldsOk, hb, Bool.true_or, Bool.not_true, Bool.false_or, Bool.and_eq_true,
    beq_iff_eq] at hfields
  obtain ⟨⟨-, hstage⟩, hbuf, hsteps⟩ := hfields
  exact ⟨herr, hcode, hinfo, hstage, hbuf, hsteps⟩

/-- While a command runs, what is clear is all that soundness asks. -/
theorem State.statusSound_of_busy {s : State} (hb : s.status.busy = true) (hd : s.status.done = false)
    (h : s.Underway) : s.StatusSound := by
  obtain ⟨herr, hcode, hinfo, hstage, hbuf, hsteps⟩ := h
  refine ⟨?_, ?_, ?_⟩
  · simp [Status.exclusive, hd, herr]
  · simp [State.errorRecordOk, herr, hcode, hinfo]
  · simp [Status.convertFieldsOk, hb, hstage, hbuf, hsteps]

/-- With neither `BUSY` nor `ERR` soundness asks for a clear error record and a report that occurs. -/
theorem State.statusSound_of_idle {s : State} (hb : s.status.busy = false) (herr : s.status.err = false)
    (hcode : s.status.errcode = 0#4) (hinfo : s.errinfo = { opc := 0#8, stage := 0#4 })
    (hstage : s.status.stage.toNat ≤ 7) (hbuf : s.status.resbuf ≠ 3#2) : s.StatusSound := by
  refine ⟨?_, ?_, ?_⟩
  · simp [Status.exclusive, hb, herr]
  · simp [State.errorRecordOk, herr, hcode, hinfo]
  · simp [Status.convertFieldsOk, hb, herr, hstage, hbuf]

/-- The status registers of the reset state are sound: no flag, no error record, nothing reported. -/
theorem State.statusSound_reset : State.reset.StatusSound :=
  State.statusSound_of_idle rfl rfl rfl rfl (Nat.zero_le 7) (show 0#2 ≠ 3#2 by decide)

/-! ### How a command ends -/

/-- Error entry writes one stage to both registers and the opcode of `CMD` (60_exceptions.md R198). -/
theorem State.statusSound_raiseError {s : State} (hbuf : s.status.resbuf = 0#2) (hsteps : s.status.nsteps = 0#3)
    (c : ErrCode) (g : Stage) : (s.raiseError c g).StatusSound := by
  obtain ⟨hlo, hhi⟩ := c.code_range
  refine ⟨rfl, ?_, ?_⟩
  · simp [State.errorRecordOk, hlo, hhi]
  · simp [Status.convertFieldsOk, g.id_le, hbuf, hsteps]

theorem CommandResult.statusSound {s t : State} {i : Instr} (h : CommandResult s i t) (hs : s.Underway) :
    t.StatusSound := by
  obtain ⟨herr, hcode, hinfo, hstage, hbuf, hsteps⟩ := hs
  cases h with
  | failed _ c g => exact State.statusSound_raiseError hbuf hsteps c g
  | convert => exact State.statusSound_of_idle rfl herr hcode hinfo (Stage.id_le _) (resultBuffer_ne_three _)
  | _ => exact State.statusSound_of_idle rfl herr hcode hinfo (by simp [hstage]) (by simp [hbuf])

/-! ### Register writes -/

/-- An accepted command starts from a clear error record (60_exceptions.md R200). -/
theorem State.StatusSound.accept {s : State} (h : s.StatusSound) (herr : s.status.err = false) (w : Word) :
    (s.accept w).StatusSound := by
  obtain ⟨-, hrec, -⟩ := h
  obtain ⟨hcode, hinfo⟩ := State.errorRecord_of_noError hrec herr
  exact State.statusSound_of_busy rfl rfl ⟨herr, hcode, hinfo, rfl, rfl, rfl⟩

theorem Status.convertFields_occur {t : Status} (h : t.convertFieldsOk = true) :
    t.stage.toNat ≤ 7 ∧ t.resbuf ≠ 3#2 := by
  simp only [Status.convertFieldsOk, Bool.and_eq_true, Nat.ble_eq, bne_iff_ne] at h
  obtain ⟨⟨⟨hstage, hbuf⟩, -⟩, -⟩ := h
  exact ⟨hstage, hbuf⟩

/-- Clearing `DONE` leaves the other flags as exclusive as they were. -/
theorem Status.exclusive_clearDone {t : Status} (h : t.exclusive = true) (c : Bool) :
    Status.exclusive { t with done := if c = true then false else t.done } = true := by
  cases c with
  | true =>
    simp only [Status.exclusive, Bool.and_eq_true] at h ⊢
    obtain ⟨⟨-, hbe⟩, -⟩ := h
    simpa using hbe
  | false => exact h

/-- A `STATUS` write made while `BUSY = 0` is the return from an error (60_exceptions.md R203), or touches `DONE`
alone. -/
theorem State.StatusSound.writeStatus {s : State} (h : s.StatusSound) (hb : s.status.busy = false) (v : Word) :
    (s.writeStatus v).StatusSound := by
  obtain ⟨hexcl, hrec, hfields⟩ := h
  by_cases hack : s.status.err = true ∧ v.getLsbD 2 = true
  · obtain ⟨herr, hv⟩ := hack
    obtain ⟨-, hdone⟩ := Status.idle_of_err hexcl herr
    obtain ⟨hstage, hbuf⟩ := Status.convertFields_occur hfields
    rw [State.writeStatus_acknowledge hdone hv]
    exact State.statusSound_of_idle hb rfl rfl rfl hstage hbuf
  · have hno : s.status.err = false ∨ v.getLsbD 2 = false := by
      simpa only [not_and_or, Bool.not_eq_true] using hack
    rw [State.writeStatus_done hrec hno]
    exact ⟨Status.exclusive_clearDone hexcl _, hrec, hfields⟩

theorem State.StatusSound.writeReg {s : State} (h : s.StatusSound) (r : Reg) (v : Word) :
    (s.writeReg r v).StatusSound := by
  cases hb : s.status.busy with
  | true =>
    rw [State.writeReg_of_busy hb]
    split <;> exact h
  | false =>
    cases r with
    | cmd =>
      cases herr : s.status.err with
      | true => rwa [State.writeReg_cmd_dropped (.inr herr)]
      | false => exact State.writeReg_cmd_accepted hb herr v ▸ h.accept herr v
    | status => exact State.writeReg_of_idle hb .status v ▸ h.writeStatus hb v
    | bank b f =>
      rw [State.writeReg_of_idle hb]
      cases b <;> exact h
    | _ =>
      rw [State.writeReg_of_idle hb]
      exact h

/-! ### Transactions and steps -/

theorem ServeResult.statusSound {s t : State} {i : Input} (h : ServeResult s i t) (hs : s.StatusSound) :
    t.StatusSound := by
  cases h with
  | regRead =>
    rw [State.readReg_eq]
    exact hs
  | regWrite => exact hs.writeReg _ _
  | memRead => exact hs
  | memWrite => exact hs
  | reset => exact State.statusSound_reset

/-- Settles O19: a running command ends from clear registers, and of the transactions only a `CMD` write, a `STATUS`
write and a reset touch them. -/
theorem stepKeepsStatusSound : Obligations.StepKeepsStatusSound := by
  intro s t hs h
  cases step_next h with
  | command hrun _ h => exact h.statusSound (hs.underway hrun.1)
  | illegal hrun _ =>
    have hrunning := hs.underway hrun.1
    exact State.statusSound_raiseError hrunning.resbuf hrunning.nsteps _ _
  | idle => exact hs
  | served _ _ h => exact h.statusSound hs

end Sys2Proof.Machine
end

section
/-! PROOFS. `NOP` and the layout commands: what each leaves when its layout succeeds, and the error entry when it fails
(40_classifier_layout.md R104, R115 to R117). -/

namespace Sys2Proof.Machine

/-- Settles O27: `NOP` is successful completion and nothing else. -/
theorem nopCompletes : Obligations.NopCompletes := fun _ => rfl

/-! ### `LAYOUT.S` and `LAYOUT.D` -/

section
variable {s : State} {r : Derived} {c : ErrCode}

theorem exec_layoutS_of_ok (h : layout s.bankS.request = .ok r) :
    exec .layoutS s = .next (State.complete { s with bankS := s.bankS.setLayout r }) := by
  simp only [exec, execLayoutS, h]

theorem exec_layoutS_of_error (h : layout s.bankS.request = .error c) :
    exec .layoutS s = .next (s.raiseError c .none) := by
  simp only [exec, execLayoutS, h]

theorem exec_layoutD_of_ok (h : layout s.bankD.request = .ok r) :
    exec .layoutD s = .next (State.complete { s with bankD := s.bankD.setLayout r }) := by
  simp only [exec, execLayoutD, h]

theorem exec_layoutD_of_error (h : layout s.bankD.request = .error c) :
    exec .layoutD s = .next (s.raiseError c .none) := by
  simp only [exec, execLayoutD, h]

end

/-- Stamping a layout writes the derived fields and `VALID`, and the fields read back uncut (40_classifier_layout.md
R112, R115). -/
theorem Bank.setLayout_stamps {b : Bank} {r : Derived} (h : layout b.request = .ok r) :
    b.setLayout r =
        { b with yStride := (b.setLayout r).yStride, uvStride := (b.setLayout r).uvStride,
                 ySize := (b.setLayout r).ySize, uvSize := (b.setLayout r).uvSize,
                 ioSize := (b.setLayout r).ioSize, valid := true } ∧
      (b.setLayout r).derived = r :=
  ⟨rfl, Bank.setLayout_derived b (Derived.fits_of_layout h b.bufSize.isLt)⟩

/-- Settles O28: the layout of the bank's own request, stamped into it. -/
theorem layoutCommandsWriteDerivedFields : Obligations.LayoutCommandsWriteDerivedFields := fun _ _ =>
  ⟨fun h => ⟨_, exec_layoutS_of_ok h, Bank.setLayout_stamps h⟩,
    fun h => ⟨_, exec_layoutD_of_ok h, Bank.setLayout_stamps h⟩,
    fun _ h => exec_layoutS_of_error h, fun _ h => exec_layoutD_of_error h⟩

/-! ### `COPYLAYOUT` -/

section
variable {s : State}

theorem exec_copylayout_of_ok {r : Derived}
    (h : layout { s.bankS.request with bufSize := s.bankD.bufSize.toNat } = .ok r) :
    exec .copylayout s = .next (State.complete { s with bankD := (s.bankD.setRequest s.bankS).setLayout r }) := by
  simp only [exec, execCopylayout, h]

theorem exec_copylayout_of_error {c : ErrCode}
    (h : layout { s.bankS.request with bufSize := s.bankD.bufSize.toNat } = .error c) :
    exec .copylayout s = .next (s.raiseError c .none) := by
  simp only [exec, execCopylayout, h]

end

/-- Settles O29: `D` with the request of `S` keeps its capacity, so the layout is that of its new request. -/
theorem copylayoutStampsDestination : Obligations.CopylayoutStampsDestination := by
  intro s
  refine ⟨fun r h => ⟨_, exec_copylayout_of_ok h, rfl, ?_⟩, fun c h => exec_copylayout_of_error h⟩
  have hreq : layout (s.bankD.setRequest s.bankS).request = .ok r := by rwa [Bank.setRequest_request]
  exact (Bank.setLayout_stamps hreq).2

end Sys2Proof.Machine
end

section
/-! PROOFS. Fixed words, and the reset state (10_state.md R50, 30_encoding.md R81, R84). -/

namespace Sys2Proof.Machine

/-- Settles O3: four words are their commands' own, and two are rejected, one for each reason. -/
theorem specWordsDecode : Obligations.SpecWordsDecode :=
  ⟨decode_eq_ok_iff.mpr rfl, decode_eq_ok_iff.mpr rfl, decode_eq_ok_iff.mpr rfl, decode_eq_ok_iff.mpr rfl, rfl, rfl⟩

/-- Settles O17: nothing is listed, no bank is laid out, and the status registers are clear. -/
theorem resetMeetsInvariant : Obligations.ResetMeetsInvariant :=
  ⟨rfl, ⟨Bank.sound_reset, Bank.sound_reset⟩, Bank.sound_reset, State.statusSound_reset⟩

end Sys2Proof.Machine
end

section
/-! PROOFS. The registers as words: where each field stands, what a write made while `BUSY = 0` stores, and what it
leaves (10_state.md R20 to R42). -/

namespace Sys2Proof.Machine

/-! ### Fields in a word -/

/-- Appended fields add up, the upper one moved by the width of the lower. -/
theorem toNat_append_add {m n : Nat} (x : BitVec m) (y : BitVec n) :
    (x ++ y).toNat = 2 ^ n * x.toNat + y.toNat := by
  rw [BitVec.toNat_append, ← Nat.shiftLeft_add_eq_or_of_lt y.isLt, Nat.shiftLeft_eq, Nat.mul_comm]

/-- A field below reserved bits reads as its own value. -/
theorem toNat_zero_append {m n : Nat} (x : BitVec n) : (0#m ++ x).toNat = x.toNat := by
  rw [toNat_append_add, BitVec.toNat_ofNat, Nat.zero_mod, Nat.mul_zero, Nat.zero_add]

theorem Status.word_toNat (t : Status) :
    t.word.toNat = t.busy.toNat + 2 * t.done.toNat + 4 * t.err.toNat + 2 ^ 4 * t.errcode.toNat + 2 ^ 8 * t.stage.toNat +
      2 ^ 12 * t.resbuf.toNat + 2 ^ 16 * t.nsteps.toNat := by
  simp only [Status.word, toNat_append_add, BitVec.toNat_ofBool, BitVec.toNat_ofNat]
  omega

theorem ErrInfo.word_toNat (e : ErrInfo) : e.word.toNat = e.opc.toNat + 2 ^ 8 * e.stage.toNat := by
  simp only [ErrInfo.word, toNat_append_add, BitVec.toNat_ofNat]
  omega

theorem IrqEn.word_toNat (e : IrqEn) : e.word.toNat = e.doneEn.toNat + 2 * e.errEn.toNat := by
  simp only [IrqEn.word, toNat_append_add, BitVec.toNat_ofBool, BitVec.toNat_ofNat]
  omega

theorem Bank.formatWord_toNat (b : Bank) :
    b.formatWord.toNat = b.fmt.toNat + 2 ^ 4 * b.tiled.toNat + 2 ^ 8 * b.nbit.toNat + 2 ^ 16 * b.nlsb.toNat := by
  simp only [Bank.formatWord, toNat_append_add, BitVec.toNat_ofBool, BitVec.toNat_ofNat]
  omega

theorem Bank.tileWord_toNat (b : Bank) :
    b.tileWord.toNat = b.tw.toNat + 2 ^ 8 * b.th.toNat + 2 ^ 16 * b.tsz.toNat := by
  simp only [Bank.tileWord, toNat_append_add]
  omega

/-! ### What a write stores, bit by bit -/

theorem and_ones (v : Word) : v &&& 0xFFFFFFFF#32 = v := BitVec.and_allOnes

theorem lowHalf_eq_mask (v : Word) : 0#16 ++ v.extractLsb' 0 16 = v &&& 0x0000FFFF#32 := by
  refine BitVec.eq_of_getLsbD_eq fun i hi => ?_
  simp only [BitVec.getLsbD_append, BitVec.getLsbD_and, BitVec.getLsbD_extractLsb']
  interval_cases i <;> simp

theorem IrqEn.word_ofWord (v : Word) : (IrqEn.ofWord v).word = v &&& 0x00000003#32 := by
  refine BitVec.eq_of_getLsbD_eq fun i hi => ?_
  simp only [IrqEn.ofWord, IrqEn.word, BitVec.getLsbD_append, BitVec.getLsbD_and]
  interval_cases i <;> simp

theorem Bank.formatWord_writeSlot (b : Bank) (v : Word) :
    (b.writeSlot .format v).formatWord = v &&& 0x001F1F1F#32 := by
  refine BitVec.eq_of_getLsbD_eq fun i hi => ?_
  simp only [Bank.writeSlot, Bank.formatWord, BitVec.getLsbD_append, BitVec.getLsbD_and, BitVec.getLsbD_extractLsb']
  interval_cases i <;> simp

theorem Bank.tileWord_writeSlot (b : Bank) (v : Word) : (b.writeSlot .tile v).tileWord = v := by
  refine BitVec.eq_of_getLsbD_eq fun i hi => ?_
  simp only [Bank.writeSlot, Bank.tileWord, BitVec.getLsbD_append, BitVec.getLsbD_extractLsb']
  interval_cases i <;> simp

/-! ### The slots of a bank -/

/-- A slot with storage reads back what was written, cut to its bits (10_state.md R30 to R39). -/
theorem Bank.readSlot_writeSlot_same (b : Bank) {f : BankSlot} {m : Word} (h : (Reg.bank .s f).writeMask = some m)
    (v : Word) : (b.writeSlot f v).readSlot f = v &&& m := by
  cases f <;> cases h
  case width | height => exact lowHalf_eq_mask v
  case format => exact b.formatWord_writeSlot v
  case tile => exact (b.tileWord_writeSlot v).trans (and_ones v).symm
  all_goals exact (and_ones v).symm

/-- A slot without storage ignores the write (10_state.md R37, R40). -/
theorem Bank.writeSlot_of_noStorage (b : Bank) {f : BankSlot} (h : (Reg.bank .s f).writeMask = none) (v : Word) :
    b.writeSlot f v = b := by
  cases f <;> cases h <;> rfl

/-- A write to one slot leaves what every other slot reads, but for `VALID` (10_state.md R42). -/
theorem Bank.readSlot_writeSlot_ne (b : Bank) {f f' : BankSlot} (hne : f' ≠ f) (hvalid : f' ≠ .valid) (v : Word) :
    (b.writeSlot f v).readSlot f' = b.readSlot f' := by
  cases f' <;> cases f <;> simp [Bank.writeSlot, Bank.readSlot, Bank.formatWord, Bank.tileWord] at hne hvalid ⊢

/-! ### Every register -/

section
variable {s : State} {r : Reg} (hb : s.status.busy = false)
include hb

theorem State.regValue_writeReg_same {m : Word} (h : r.writeMask = some m) (v : Word) :
    (s.writeReg r v).regValue r = v &&& m := by
  rw [State.writeReg_of_idle hb]
  cases r with
  | bank b f =>
    cases b with
    | s => exact s.bankS.readSlot_writeSlot_same h v
    | d => exact s.bankD.readSlot_writeSlot_same h v
    | w => cases h
  | irqEn =>
    cases h
    exact IrqEn.word_ofWord v
  | scr0Base | scr0Cap | scr1Base | scr1Cap =>
    cases h
    exact (and_ones v).symm
  | id | cmd | status | errinfo | reserved => cases h

/-- A write to a read-only or reserved register changes nothing (10_state.md R20, R21, R41). -/
theorem State.writeReg_of_noStorage (h : r.writeMask = none) (hcmd : r ≠ .cmd) (hstatus : r ≠ .status) (v : Word) :
    s.writeReg r v = s := by
  rw [State.writeReg_of_idle hb]
  cases r with
  | bank b f =>
    cases b with
    | s => rw [State.writeIdle, s.bankS.writeSlot_of_noStorage h]
    | d => rw [State.writeIdle, s.bankD.writeSlot_of_noStorage h]
    | w => rfl
  | irqEn | scr0Base | scr0Cap | scr1Base | scr1Cap => cases h
  | cmd => exact absurd rfl hcmd
  | status => exact absurd rfl hstatus
  | id | errinfo | reserved => rfl

end

/-- Acceptance writes `CMD` and `STATUS` (10_state.md R23). -/
theorem State.regValue_writeCmd (s : State) (w : Word) {r : Reg} (hcmd : r ≠ .cmd) (hstatus : r ≠ .status) :
    (s.writeCmd w).regValue r = s.regValue r := by
  unfold State.writeCmd
  split
  · rfl
  · cases r with
    | cmd => exact absurd rfl hcmd
    | status => exact absurd rfl hstatus
    | _ => rfl

/-- A `STATUS` write touches `STATUS` and `ERRINFO` (10_state.md R24, 60_exceptions.md R203). -/
theorem State.regValue_writeStatus (s : State) (v : Word) {r : Reg} (hstatus : r ≠ .status) (hinfo : r ≠ .errinfo) :
    (s.writeStatus v).regValue r = s.regValue r := by
  cases r with
  | status => exact absurd rfl hstatus
  | errinfo => exact absurd rfl hinfo
  | _ => rfl

/-- A bank's slots as the host sees them after a write to any register. -/
theorem State.regValue_bank_writeReg (s : State) {r : Reg} {b : BankId} {f : BankSlot} (hne : .bank b f ≠ r)
    (hvalid : ∀ g, ¬(r = .bank b g ∧ f = .valid)) (v : Word) :
    (s.writeReg r v).regValue (.bank b f) = s.regValue (.bank b f) := by
  rcases s.writeReg_bank r v b with e | ⟨-, g, rfl, e⟩
  · exact congrArg (·.readSlot f) e
  · have hfg : f ≠ g := fun h => hne (h ▸ rfl)
    exact (congrArg (·.readSlot f) e).trans
      ((s.bank b).readSlot_writeSlot_ne hfg (fun h => hvalid g ⟨rfl, h⟩) v)

/-- A write leaves what every register outside the banks reads but its own, and but what `CMD` and `STATUS` do to the
status registers. -/
theorem State.regValue_writeIdle (s : State) {r r' : Reg} (hne : r' ≠ r) (hcmd : ¬(r = .cmd ∧ r' = .status))
    (hstatus : ¬(r = .status ∧ r' = .errinfo)) (hbank : ∀ b f, r' ≠ .bank b f) (v : Word) :
    (s.writeIdle r v).regValue r' = s.regValue r' := by
  cases r with
  | cmd => exact s.regValue_writeCmd v hne fun h => hcmd ⟨rfl, h⟩
  | status => exact s.regValue_writeStatus v hne fun h => hstatus ⟨rfl, h⟩
  | bank b f =>
    cases r' with
    | bank b' f' => exact absurd rfl (hbank b' f')
    | _ => cases b <;> rfl
  | id | errinfo | reserved => rfl
  | irqEn | scr0Base | scr0Cap | scr1Base | scr1Cap =>
    cases r' <;> simp [State.writeIdle, State.regValue, State.bank] at hne ⊢

theorem State.regValue_writeReg_ne {s : State} (hb : s.status.busy = false) {r r' : Reg} (hne : r' ≠ r)
    (hcmd : ¬(r = .cmd ∧ r' = .status)) (hstatus : ¬(r = .status ∧ r' = .errinfo))
    (hvalid : ∀ b f, ¬(r = .bank b f ∧ r' = .bank b .valid)) (v : Word) :
    (s.writeReg r v).regValue r' = s.regValue r' := by
  by_cases hbank : ∃ b f, r' = .bank b f
  · obtain ⟨b, f, rfl⟩ := hbank
    exact s.regValue_bank_writeReg hne (fun g ⟨hr, hf⟩ => hvalid b g ⟨hr, hf ▸ rfl⟩) v
  · rw [State.writeReg_of_idle hb]
    exact s.regValue_writeIdle hne hcmd hstatus (fun b f h => hbank ⟨b, f, h⟩) v

/-- Settles O9: what a write stores and leaves, register by register, and the places of the fields. -/
theorem registerWriteReadback : Obligations.RegisterWriteReadback := by
  refine ⟨fun s r v hb => ⟨fun m hm => State.regValue_writeReg_same hb hm v,
    fun hm hcmd hstatus => State.writeReg_of_noStorage hb hm hcmd hstatus v,
    fun r' hne hcmd hstatus hvalid => State.regValue_writeReg_ne hb hne hcmd hstatus hvalid v, s.writeReg_mem r v⟩,
    fun s => ⟨s.status.word_toNat, s.errinfo.word_toNat, s.irqEn.word_toNat, rfl, rfl, rfl, rfl, rfl, rfl, rfl⟩,
    fun s b k hk => ?_⟩
  obtain rfl : s.bank b = k := by
    simp only [List.mem_cons, Prod.mk.injEq, List.not_mem_nil, or_false] at hk
    rcases hk with ⟨rfl, rfl⟩ | ⟨rfl, rfl⟩ | ⟨rfl, rfl⟩ <;> rfl
  exact ⟨toNat_zero_append _, toNat_zero_append _, (s.bank b).formatWord_toNat, (s.bank b).tileWord_toNat,
    rfl, rfl, rfl, rfl, rfl, rfl, rfl, rfl, rfl, (toNat_zero_append _).trans (BitVec.toNat_ofBool _), rfl⟩

end Sys2Proof.Machine
end

section
/-! PROOFS. `PACK10`: the bytes of a packed row and of a tile word depend on the source alone, so both forms of the body
fill the destination with them (20_memory.md R69, R71, 41_codec.md R127, R128). -/

namespace Sys2Proof.Machine

/-! ### Raster -/

theorem readRow16_eq (m : Memory) (a n : Nat) :
    readRow16 m a n = (List.range n).map fun x => Memory.readLE m (a + x * 2) 2 := by
  induction n generalizing a with
  | zero => rfl
  | succ n ih =>
    rw [readRow16, ih, List.range_succ_eq_map, List.map_cons, List.map_map, Nat.zero_mul, Nat.add_zero]
    refine congrArg _ (List.map_congr_left fun x _ => ?_)
    rw [Function.comp_apply, Nat.succ_mul, Nat.add_assoc, Nat.add_comm 2]

/-- The bytes `pack_row` writes do not depend on the memory it writes them to. -/
theorem read_packRow_eq {m m' : Memory} (hm : Memory.wf m = true) (hm' : Memory.wf m' = true) {ra : Nat} {v : List Nat}
    (hfit : ra + ceilDiv (10 * v.length) 8 ≤ Config.memSize) {o : Nat} (ho : o < ceilDiv (10 * v.length) 8) :
    Memory.read (packRow m' ra v) (ra + o) = Memory.read (packRow m ra v) (ra + o) := by
  refine BitVec.eq_of_getLsbD_eq fun t ht => ?_
  exact (testBit_packRow hm' hfit ho ht).trans (testBit_packRow hm hfit ho ht).symm

/-- The 16-bit samples of raster row `y` of plane `i`. -/
def rasterRow16 (m : Memory) (s : Desc) (i y : Nat) : List Nat :=
  readRow16 m (rowAddr s (plane s i) y) (plane s i).ws

@[simp] theorem rasterRow16_length (m : Memory) (s : Desc) (i y : Nat) :
    (rasterRow16 m s i y).length = (plane s i).ws := readRow16_length ..

theorem rasterRow16_getD (m : Memory) (s : Desc) {i x : Nat} (y : Nat) (hx : x < (plane s i).ws) :
    (rasterRow16 m s i y).getD x 0 = Memory.readLE m (sampleAddr s (plane s i) 2 x y) 2 := by
  simp [rasterRow16, readRow16_eq, hx, sampleAddr]

/-- What raster `PACK10` fills storage row `y` with: the packed samples of the source's row (41_codec.md R128). -/
def packedByte (m : Memory) (s d : Desc) (i y k : Nat) : Byte :=
  Memory.read (packRow m (rowAddr d (plane d i) y) (rasterRow16 m s i y)) (rowAddr d (plane d i) y + k)

section
variable {s d : Desc} (h : ApartPair s d) (hadm : Prim.pack10.Admits s d) {m : Memory} (hm : Memory.wf m = true)
include h hadm

/-- The source samples read as before in a memory that differs inside the destination only. -/
theorem ApartPair.sample16_kept {m1 : Memory} (hk : keepsOutside d m m1) {i x y : Nat} (hs : s.hasSample i x y) :
    Memory.readLE m1 (sampleAddr s (plane s i) 2 x y) 2 = Memory.readLE m (sampleAddr s (plane s i) 2 x y) 2 := by
  obtain ⟨hn, -⟩ := hadm
  refine readSample_congr (b := 2) (Desc.raster_of_nbit16 h.src hn) hn hs fun a ha => ?_
  obtain ⟨j, z, k, hj, hz, hk', rfl⟩ := ha
  exact h.source_kept hk ⟨hj, hz, hk'⟩

theorem ApartPair.rasterRow16_kept {m1 : Memory} (hk : keepsOutside d m m1) {i y : Nat} (hi : i < (planes s).length)
    (hy : y < (plane s i).rows) : rasterRow16 m1 s i y = rasterRow16 m s i y := by
  rw [rasterRow16, rasterRow16, readRow16_eq, readRow16_eq]
  exact List.map_congr_left fun x hx => h.sample16_kept hadm hk ⟨hi, List.mem_range.mp hx, hy⟩

/-- A packed row is as long as a storage row of the destination. -/
theorem ApartPair.packedRow_length (ht : d.tiled = false) {i : Nat} (hi : i < (planes d).length) (m1 : Memory)
    (y : Nat) : ceilDiv (10 * (rasterRow16 m1 s i y).length) 8 = rowBytes d (plane d i) := by
  obtain ⟨-, -, hn, hf⟩ := hadm
  rw [rasterRow16_length, h.ws_eq hf hi, rowBytes_compact ht hn]

include hm

theorem bodyPack10_fills_raster (ht : d.tiled = false) :
    Fills d (packedByte m s d) m d.hasByte (bodyPack10 s d) := by
  have ⟨_, _, hn, hf⟩ := hadm
  have hfill : ∀ i, i < (planes s).length → ∀ y, y < (plane s i).rows →
      Fills d (packedByte m s d) m (segment i y 0 (rowBytes d (plane d i)))
        (fun m1 => packRow m1 (rowAddr d (plane d i) y) (rasterRow16 m1 s i y)) := by
    intro i hi y hy
    have hid := h.length_eq hf ▸ hi
    have hyd : y < storageRows d (plane d i) := by rwa [storageRows_raster ht, ← h.rows_eq hf hid]
    have hlen := h.packedRow_length hadm ht hid
    have hrow := row_inMemory h.dst h.fits hid hyd
    refine Fills.of_segment h.dst hid hyd (Nat.zero_add _).le (fun m1 hm1 => wf_packRow hm1 _ _)
      (fun m1 a ha => packRow_keeps m1 (by rwa [hlen])) fun m1 hm1 hk k hkn => ?_
    rw [Nat.zero_add, Nat.add_zero, h.rasterRow16_kept hadm hk hi hy, packedByte]
    exact read_packRow_eq hm hm1 (by rwa [hlen]) (by rwa [hlen])
  have hbody : bodyPack10 s d = forRows s d (fun ps pd y m1 =>
      packRow m1 (rowAddr d pd y) (readRow16 m1 (rowAddr s ps y) ps.ws)) := by
    funext m1
    simp [bodyPack10, ht]
  rw [hbody]
  refine (Fills.loop fun i hi => Fills.loop (hfill i hi)).mono fun i y k ⟨hi, hy, hk⟩ => ?_
  rw [storageRows_raster ht, ← h.rows_eq hf hi] at hy
  exact ⟨i, h.length_eq hf ▸ hi, y, hy, rfl, rfl, Nat.zero_le k, by omega⟩

end

/-! ### Tiled -/

/-- The ten bits of tile word `r` of cell `(tx, ty)` at position `c`: a sample, or 0 for a pad sample (41_codec.md
R128). -/
def tileSample10 (s : Desc) (ps : Plane) (m : Memory) (tx ty r c : Nat) : Nat :=
  if 3 * tx + c < ps.ws ∧ 4 * ty + r < ps.rows then
    Memory.readLE m (sampleAddr s ps 2 (3 * tx + c) (4 * ty + r)) 2 % 1024
  else 0

theorem tileSample10_lt (s : Desc) (ps : Plane) (m : Memory) (tx ty r c : Nat) :
    tileSample10 s ps m tx ty r c < 2 ^ 10 := by
  unfold tileSample10
  split
  · exact Nat.mod_lt _ (by decide)
  · decide

/-- Digits put together by `or` add up. -/
theorem or_digits_eq_sum {w : Nat} {v : Nat → Nat} (hv : ∀ k, v k < 2 ^ w) (n : Nat) :
    iterate n (fun k acc => acc ||| v k <<< (w * k)) 0 = iterate n (fun k acc => acc + v k * 2 ^ (w * k)) 0 := by
  induction n with
  | zero => rfl
  | succ n ih =>
    rw [iterate_succ, iterate_succ, ih, Nat.or_comm, ← Nat.shiftLeft_add_eq_or_of_lt (digits_lt hv n),
      Nat.shiftLeft_eq, Nat.add_comm]

/-- A tile word holds its three samples ten bits apart (20_memory.md R71). -/
theorem tileWord10_eq (s : Desc) (ps : Plane) (m : Memory) (tx ty r : Nat) :
    tileWord10 s ps m tx ty r =
      tileSample10 s ps m tx ty r 0 + tileSample10 s ps m tx ty r 1 * 1024 +
        tileSample10 s ps m tx ty r 2 * 1048576 := by
  have hor : tileWord10 s ps m tx ty r =
      iterate 3 (fun c word => word ||| tileSample10 s ps m tx ty r c <<< (10 * c)) 0 := by
    refine iterate_congr (fun c _ word => ?_) 0
    unfold tileSample10
    split
    · rfl
    · simp
  rw [hor, or_digits_eq_sum fun c => tileSample10_lt s ps m tx ty r c]
  simp [iterate_succ]

theorem tileWord10_lt (s : Desc) (ps : Plane) (m : Memory) (tx ty r : Nat) : tileWord10 s ps m tx ty r < 2 ^ 30 := by
  have hlt := tileSample10_lt s ps m tx ty r
  have h0 := hlt 0
  have h1 := hlt 1
  have h2 := hlt 2
  rw [tileWord10_eq]
  omega

/-- Tile word `r` of cell `(tx, ty)` lies in storage row `ty` of its plane (20_memory.md R71). -/
theorem tileWord_addr (d : Desc) (p : Plane) (tx ty r : Nat) :
    d.base + p.off + ty * p.stride + tx * 16 + 4 * r = rowAddr d p ty + (tx * 16 + 4 * r) :=
  Nat.add_assoc _ (tx * 16) (4 * r)

/-- What tiled `PACK10` fills byte `k` of tile row `ty` with: a byte of the word of its cell and row (20_memory.md
R71). -/
def packedTileByte (m : Memory) (s : Desc) (i ty k : Nat) : Byte :=
  BitVec.ofNat 8 (tileWord10 s (plane s i) m (k / 16) ty (k % 16 / 4) >>> (8 * (k % 4)))

theorem packedTileByte_word (m : Memory) (s : Desc) (i ty tx : Nat) {r o : Nat} (hr : r < 4) (ho : o < 4) :
    packedTileByte m s i ty (tx * 16 + 4 * r + o) =
      BitVec.ofNat 8 (tileWord10 s (plane s i) m tx ty r >>> (8 * o)) := by
  have htx : (tx * 16 + 4 * r + o) / 16 = tx := by omega
  have hr' : (tx * 16 + 4 * r + o) % 16 / 4 = r := by omega
  have ho' : (tx * 16 + 4 * r + o) % 4 = o := by omega
  rw [packedTileByte, htx, hr', ho']

section
variable {s d : Desc} (h : ApartPair s d) (hadm : Prim.pack10.Admits s d) {m : Memory}
include h hadm

theorem ApartPair.tileWord10_kept {m1 : Memory} (hk : keepsOutside d m m1) {i : Nat} (hi : i < (planes s).length)
    (tx ty r : Nat) : tileWord10 s (plane s i) m1 tx ty r = tileWord10 s (plane s i) m tx ty r := by
  refine iterate_congr (fun c _ word => ?_) 0
  split
  · rename_i hin
    rw [h.sample16_kept hadm hk ⟨hi, hin⟩]
  · rfl

theorem bodyPack10_fills_tiled (ht : d.tiled = true) :
    Fills d (packedTileByte m s) m
      (fun i ty k => ∃ tx r o, i < (planes d).length ∧ ty < ceilDiv (plane d i).rows 4 ∧
        tx < ceilDiv (plane d i).ws 3 ∧ r < 4 ∧ o < 4 ∧ k = tx * 16 + 4 * r + o)
      (bodyPack10 s d) := by
  have ⟨_, _, hn, hf⟩ := hadm
  have hlen := h.length_eq hf
  have hfill : ∀ i, i < (planes s).length → ∀ ty, ty < ceilDiv (plane d i).rows 4 → ∀ tx,
      tx < ceilDiv (plane d i).ws 3 → ∀ r, r < 4 →
      Fills d (packedTileByte m s) m (segment i ty (tx * 16 + 4 * r) 4)
        (fun m1 => Memory.writeLE m1 (d.base + (plane d i).off + ty * (plane d i).stride + tx * 16 + 4 * r) 4
          (tileWord10 s (plane s i) m1 tx ty r)) := by
    intro i hi ty hty tx htx r hr
    have hid := hlen ▸ hi
    have htyd : ty < storageRows d (plane d i) := by rwa [storageRows_tiled h.dst ht]
    have hcell : tx * 16 + 4 * r + 4 ≤ rowBytes d (plane d i) := by
      rw [rowBytes_tiled10 h.dst ht hn]
      exact cell_fits (o := 4 * r + 3) htx (by omega)
    have hrow := row_inMemory h.dst h.fits hid htyd
    rw [tileWord_addr]
    refine Fills.of_segment h.dst hid htyd hcell (fun m1 hm1 => Memory.wf_writeLE hm1 _ _ _)
      (fun m1 a ha => Memory.read_writeLE_outside m1 ha) fun m1 hm1 hk o ho => ?_
    rw [Memory.read_writeLE_inside hm1 _ ho (by omega), h.tileWord10_kept hadm hk hi,
      packedTileByte_word m s i ty tx hr ho]
  have hbody : bodyPack10 s d =
      iterate (planes s).length (fun i m1 => packPlaneTiled s d (plane s i) (plane d i) m1) := by
    funext m1
    simp [bodyPack10, ht]
  rw [hbody]
  refine (Fills.loop fun i hi => Fills.loop fun ty hty => Fills.loop fun tx htx => Fills.loop fun r hr =>
    hfill i hi ty hty tx htx r hr).mono ?_
  rintro i ty k ⟨tx, r, o, hi, hty, htx, hr, ho, rfl⟩
  exact ⟨i, hlen ▸ hi, ty, hty, tx, htx, r, hr, rfl, rfl, Nat.le_add_right _ _, by omega⟩

end

/-! ### The command -/

/-- The pad bits of a packed row are 0 (41_codec.md R127). -/
theorem rowBit_packRow_pad {m : Memory} (hm : Memory.wf m = true) {ra : Nat} {v : List Nat}
    (hfit : ra + ceilDiv (10 * v.length) 8 ≤ Config.memSize) {j : Nat} (hj : 10 * v.length ≤ j)
    (hend : j < 8 * ceilDiv (10 * v.length) 8) : rowBit (packRow m ra v) ra j = 0 := by
  rw [rowBit_eq_testBit, testBit_packRow hm hfit (by omega) (Nat.mod_lt _ (by decide)), Nat.div_add_mod,
    packedBit_past hj]
  rfl

section
variable {s d : Desc} (h : ApartPair s d) (hadm : Prim.pack10.Admits s d) (ht : d.tiled = false) {m m' : Memory}
  (hm : Memory.wf m = true)
  (hfilled : ∀ i y k, d.hasByte i y k → Memory.read m' (rowAddr d (plane d i) y + k) = packedByte m s d i y k)
include h hadm ht hm hfilled

/-- A row filled with packed bytes holds the low ten bits of the source's samples. -/
theorem compactSample_of_packed {i x y : Nat} (hs : s.hasSample i x y) :
    compactSample m' (rowAddr d (plane d i) y) x =
      Memory.readLE m (sampleAddr s (plane s i) 2 x y) 2 % 1024 := by
  have ⟨_, _, _, hf⟩ := hadm
  obtain ⟨hi, -, hy⟩ := (h.hasSample_iff hf i x y).mp hs
  obtain ⟨-, hx, -⟩ := hs
  rw [← storageRows_raster ht] at hy
  have hlen := h.packedRow_length hadm ht hi m y
  have hrow := row_inMemory h.dst h.fits hi hy
  have hbytes (k : Nat) (hk : k < 10) : (10 * x + k) / 8 < rowBytes d (plane d i) := by
    rw [← hlen, rasterRow16_length, lt_ceilDiv_iff (by decide)]
    omega
  calc compactSample m' (rowAddr d (plane d i) y) x
      = compactSample (packRow m (rowAddr d (plane d i) y) (rasterRow16 m s i y)) (rowAddr d (plane d i) y) x :=
        compactSample_congr fun k hk => hfilled i y _ ⟨hi, hy, hbytes k hk⟩
    _ = (rasterRow16 m s i y).getD x 0 % 1024 := compactSample_packRow hm (by rwa [hlen]) (by simpa using hx)
    _ = Memory.readLE m (sampleAddr s (plane s i) 2 x y) 2 % 1024 := by rw [rasterRow16_getD m s y hx]

theorem rowBit_of_packed {i y j : Nat} (hi : i < (planes d).length) (hy : y < (plane d i).rows)
    (hj : 10 * (plane d i).ws ≤ j) (hend : j < 8 * rowBytes d (plane d i)) :
    rowBit m' (rowAddr d (plane d i) y) j = 0 := by
  have ⟨_, _, _, hf⟩ := hadm
  rw [← storageRows_raster ht] at hy
  have hlen := h.packedRow_length hadm ht hi m y
  have hrow := row_inMemory h.dst h.fits hi hy
  rw [rowBit, hfilled i y _ ⟨hi, hy, by omega⟩]
  exact rowBit_packRow_pad hm (by rwa [hlen]) (by rwa [rasterRow16_length, h.ws_eq hf hi]) (by rwa [hlen])

end

/-- Four bytes of a filled tile row are the word of their cell. -/
theorem readLE_of_packedTile {m m' : Memory} {s : Desc} {addr i ty tx r : Nat} (hr : r < 4)
    (h : ∀ o, o < 4 → Memory.read m' (addr + o) = packedTileByte m s i ty (tx * 16 + 4 * r + o)) :
    Memory.readLE m' addr 4 = tileWord10 s (plane s i) m tx ty r := by
  rw [Memory.readLE_of_bytes fun o ho => (h o ho).trans (packedTileByte_word m s i ty tx hr ho)]
  exact Nat.mod_eq_of_lt ((tileWord10_lt ..).trans (by decide))

/-- Settles O39: the body fills every storage row of a raster destination and every word of a tiled one. -/
theorem pack10Result : Obligations.Pack10Result := by
  rintro s S D rfl rfl hready hn hl hn' hf
  have hpair := hready.apartPair
  have hadm : Prim.pack10.Admits s.bankS.desc s.bankD.desc := ⟨hn, hl, hn', hf⟩
  have ⟨hwf, _⟩ := hready
  cases ht : s.bankD.desc.tiled with
  | false =>
    obtain ⟨m, hexec, hkeep, hfilled⟩ :=
      hready.fill_result hadm nofun (bodyPack10_fills_raster hpair hadm hwf ht)
    exact ⟨m, hexec, hkeep, fun _ => ⟨fun i x y hs => compactSample_of_packed hpair hadm ht hwf hfilled hs,
      fun i y j hi hy hj hend => rowBit_of_packed hpair hadm ht hwf hfilled hi hy hj hend⟩, nofun⟩
  | true =>
    obtain ⟨m, hexec, hkeep, hfilled⟩ := hready.fill_result hadm nofun (bodyPack10_fills_tiled hpair hadm ht)
    refine ⟨m, hexec, hkeep, nofun, fun _ i tx ty r v hi hty htx hr hv => ?_⟩
    have hsample (c : Nat) : v c = tileSample10 s.bankS.desc (plane s.bankS.desc i) s.mem tx ty r c := hv c
    rw [tileWord_addr, hsample, hsample, hsample, ← tileWord10_eq]
    refine readLE_of_packedTile hr fun o ho => ?_
    rw [Nat.add_assoc]
    exact hfilled i ty _ ⟨tx, r, o, hi, hty, htx, hr, ho, rfl⟩

end Sys2Proof.Machine
end
